-- ==== Sys2Proof/Word.lean ====
section
/-! DEFINITION. The unit of data of the block: a byte, bit 7 the most significant (00_scope.md R9). Every access
of the block moves one byte (20_memory.md R50, R59). -/

namespace Sys2Proof

/-- A byte: 8 bits (00_scope.md R9). -/
abbrev Byte := BitVec 8

end Sys2Proof
end

