-- ==== Sys2Proof/Machine/Record.lean ====
section
/-! DEFINITION. The types of the EDIDRecord (10_state.md R34 to R39): tagged variants are inductive types ("express as a
sum type with an explicit selector function", R37), fixed arrays are vectors, fields keep the spec's widths. -/

namespace Sys2Proof.Machine

/-- `VIN`, the input signal type (10_state.md R37). -/
inductive VideoInput where
  /-- `DIGITAL{DFP, DIG_RSVD}`: the reserved bits are kept as found. -/
  | digital (dfp : Bool) (digRsvd : BitVec 6)
  /-- `ANALOG{LEVELS, SETUP, SEP_SYNC, COMP_SYNC, SOG, SERRATION}`. -/
  | analog (levels : BitVec 2) (setup sepSync compSync sog serration : Bool)
deriving DecidableEq, Repr, Inhabited

/-- One entry of `STD[0..7]` (10_state.md R38). -/
structure StdTiming where
  used : Bool
  hcode : Byte
  aspect : BitVec 2
  vcode : BitVec 6
deriving DecidableEq, Repr, Inhabited

/-- The fields of a detailed-timing descriptor (10_state.md R39, 45_edid_descriptors.md R203). -/
structure DetailedTiming where
  pixclk : BitVec 16
  hact : BitVec 12
  hblank : BitVec 12
  vact : BitVec 12
  vblank : BitVec 12
  hso : BitVec 10
  hspw : BitVec 10
  vso : BitVec 6
  vspw : BitVec 6
  himgMm : BitVec 12
  vimgMm : BitVec 12
  hborder : Byte
  vborder : Byte
  interlaced : Bool
  stereo : BitVec 3
  syncType : BitVec 2
  syncOpt : BitVec 2
deriving DecidableEq, Repr, Inhabited

/-- `KIND` of a text descriptor (10_state.md R39). -/
inductive TextKind where
  | name
  | serial
  | comment
deriving DecidableEq, Repr, Inhabited

/-- The fields of a monitor-range-limits descriptor (10_state.md R39, 45_edid_descriptors.md R206). -/
structure RangeLimits where
  vmin : Byte
  vmax : Byte
  hmin : Byte
  hmax : Byte
  pclkMax : Byte
  formula : Byte
  tail : Vector Byte 7
deriving DecidableEq, Repr, Inhabited

/-- One white-point entry `WP[i]` (10_state.md R39, 45_edid_descriptors.md R207). -/
structure WhitePoint where
  index : Byte
  wx : BitVec 10
  wy : BitVec 10
  wgamma : Byte
deriving DecidableEq, Repr, Inhabited

/-- `DESC[k]`: exactly the five constructors the source lists (10_state.md R39). -/
inductive Desc where
  | dtd (t : DetailedTiming)
  | text (kind : TextKind) (data : Vector Byte 13) (tlen : BitVec 4)
  | range (r : RangeLimits)
  | white (wp0 wp1 : WhitePoint) (tail : Vector Byte 3)
  | unused
deriving DecidableEq, Repr, Inhabited

/-- The EDIDRecord: every record register of result group ED (10_state.md R36 to R39). -/
structure Record where
  mfgId : BitVec 15
  mfgL1 : BitVec 5
  mfgL2 : BitVec 5
  mfgL3 : BitVec 5
  product : BitVec 16
  serial : BitVec 32
  week : Byte
  year : Byte
  version : Byte
  revision : Byte
  vin : VideoInput
  hsizeCm : Byte
  vsizeCm : Byte
  gamma : Byte
  pwrStandby : Bool
  pwrSuspend : Bool
  pwrActiveoff : Bool
  dispType : BitVec 2
  srgb : Bool
  prefTiming : Bool
  gtf : Bool
  redX : BitVec 10
  redY : BitVec 10
  greenX : BitVec 10
  greenY : BitVec 10
  blueX : BitVec 10
  blueY : BitVec 10
  whiteX : BitVec 10
  whiteY : BitVec 10
  est : BitVec 24
  std : Vector StdTiming 8
  desc : Vector Desc 4
  extCount : Byte
  checksum : Byte
deriving DecidableEq, Repr, Inhabited

end Sys2Proof.Machine
end

