-- ==== Sys2Proof/Config.lean ====
section
/-! DEFINITION. What is fixed for the machine: the hardwired constants and the parameters of 00_scope.md R7
(10_state.md R42: "A model puts the parameters in its configuration, not in its state"), and the free values that
stand for the registers the spec calls unspecified (93_implementation_defined.md U1, U2, U3). -/

namespace Sys2Proof.Config

open Sys2Proof.Machine

/-- `SRC_ADDR`, first byte of a request frame (00_scope.md R7). -/
def srcAddr : Byte := 0x51
/-- `DEST_ADDR`, the seed of a request frame's checksum (00_scope.md R7). -/
def destAddr : Byte := 0x6E
/-- `OPC_GET`, "get VCP feature" (00_scope.md R7). -/
def opcGet : Byte := 0x01
/-- `OPC_SET`, "set VCP feature" (00_scope.md R7). -/
def opcSet : Byte := 0x03
/-- `LEN_FLAG`, bit 7 of the length byte (00_scope.md R7). -/
def lenFlag : Byte := 0x80
/-- `RC_OK`, the result code that indicates success (00_scope.md R7). -/
def rcOk : Byte := 0x00
/-- `EDID_LEN` (00_scope.md R7). -/
def edidLen : Nat := 128
/-- `EDID_HEADER` (00_scope.md R7). -/
def edidHeader : List Byte := [0x00, 0xFF, 0xFF, 0xFF, 0xFF, 0xFF, 0xFF, 0x00]

/-- The parameters that enter the checks of `DECR` (42_ddc_decode.md R120), of either value and any seed (00_scope.md R7). -/
structure Params where
  /-- `RX_SEED`, the seed of the reply frame's checksum. -/
  rxSeed : Byte
  /-- `T` = `REPLY_TYPE_BYTE`, 0 or 1. -/
  typeByte : Fin 2
deriving DecidableEq, Repr

/-- `VW`, 8 or 16 (00_scope.md R7). -/
inductive ValWidth where
  | w8
  | w16
deriving DecidableEq, Repr

/-- `VW` as a number of bits. -/
abbrev ValWidth.bits : ValWidth → Nat
  | .w8 => 8
  | .w16 => 16

/-- A setting of the block's four parameters (00_scope.md R7): an argument of the model (Machine/Setting.lean), in its
configuration and not in its state (10_state.md R42). -/
structure Setting extends Params where
  /-- `VW`. -/
  valWidth : ValWidth
  /-- Which capacity of the range `RXCAP` has; read through `Setting.rxcap`. -/
  spare : Nat
deriving DecidableEq, Repr

/-- `RXCAP`, the number of cells of `RXBUF`: within `10 + T <= RXCAP <= 130` at every setting, each value of the range at
some setting (00_scope.md R7). -/
def Setting.rxcap (p : Setting) : Nat :=
  p.spare % (121 - p.typeByte.val) + (10 + p.typeByte.val)

/-- The reply parameters of this hardware: the spec's defaults, `RX_SEED` = 0x6E and `T` = 0 (00_scope.md R7, decisions D6,
D7). DESIGN CHOICE of the spec, unsafe for a display that needs another setting: log entry 5. -/
def hw : Params where
  rxSeed := 0x6E
  typeByte := 0

/-- The open part of `RXCAP` (decision D13). No body: nothing can be proved of its value. Log entry 6. -/
opaque rxcapSpare : Nat

/-- The setting of this hardware: the spec's defaults, with `VW` = 8 (decision D11), log entry 5; `RXCAP`, which has no
default, is any value of its range. DESIGN CHOICE, safe: log entry 6. -/
abbrev hardware : Setting where
  toParams := hw
  valWidth := .w8
  spare := rxcapSpare

/-- `VW` of this hardware, the width of its `VAL`. -/
abbrev vw : Nat := hardware.valWidth.bits

/-- `RXCAP` of this hardware. -/
def rxcap : Nat := hardware.rxcap

/-- Number of cells of `TXBUF` (10_state.md R28). -/
def txCells : Nat := 7

/-- `TXBUF[5]` after `ENCR`: a free value (U3). No body. Log entry 4. -/
opaque freeTx5 : Nat → Byte
/-- `TXBUF[6]` after `ENCR`: a free value (U3). No body. Log entry 4. -/
opaque freeTx6 : Nat → Byte
/-- `RR_MAX` after a failed `DECR`: a free value (U1). No body. Log entry 4. -/
opaque freeRrMax : Nat → BitVec 16
/-- `RR_CUR` after a failed `DECR`: a free value (U1). No body. Log entry 4. -/
opaque freeRrCur : Nat → BitVec 16
/-- The EDIDRecord after a failed `EDID`: a free value (U2). No body. Log entry 4. -/
opaque freeRecord : Nat → Record

end Sys2Proof.Config
end

