-- ==== Sys2Proof/Machine/Checksum.lean ====
section
/-! DEFINITION. The two functional units (40_checksum.md R100, R103) and the bytes of a frame that are computed from
others: the length byte (30_encoding.md R72), the fixed parts of formats W and R (R74, R75), the bytes of format P (R76). -/

namespace Sys2Proof.Machine

/-- `xor_fold(seed, s)`: the seed exclusive-ored with every byte of s (40_checksum.md R100). -/
def xorFold (seed : Byte) (s : List Byte) : Byte :=
  s.foldl (fun acc b => acc ^^^ b) seed

/-- `sum8(s)`: the sum of the bytes of s modulo 256, the carry out of bit 7 dropped (40_checksum.md R103). -/
def sum8 (s : List Byte) : Byte :=
  s.foldl (fun acc b => acc + b) 0x00

/-- The length byte of a frame with n payload bytes, `0x80 | n` (30_encoding.md R72). -/
def lenByte (n : Nat) : Byte :=
  Config.lenFlag ||| BitVec.ofNat 8 n

/-- The bytes of format W before its checksum (30_encoding.md R74). -/
def frameWHead (cid vh vl : Byte) : List Byte :=
  [Config.srcAddr, lenByte 4, Config.opcSet, cid, vh, vl]

/-- The bytes of format R before its checksum (30_encoding.md R75). -/
def frameRHead (cid : Byte) : List Byte :=
  [Config.srcAddr, lenByte 2, Config.opcGet, cid]

/-- The checksum byte of a request frame, seed `DEST_ADDR` (30_encoding.md R73). -/
def requestChecksum (head : List Byte) : Byte :=
  xorFold Config.destAddr head

/-- The bytes of a format P frame (30_encoding.md R76). -/
def replyBytes (rsrc : Byte) (count : BitVec 7) (ropc echo : Byte) (typ : Option Byte) (mh ml sh sl : Byte)
    (extra : List Byte) (chk : Byte) : List Byte :=
  [rsrc, lenByte count.toNat, ropc, Config.rcOk, echo] ++ typ.toList ++ [mh, ml, sh, sl] ++ extra ++ [chk]

end Sys2Proof.Machine
end

