-- ==== Sys2Proof/Machine/Operands.lean ====
section
/-! DEFINITION. Field assembly: every operand form and byte order of the spec (20_memory.md R52, R53; 30_encoding.md R78 to
R84). Every field is unsigned (40_checksum.md R105). -/

namespace Sys2Proof.Machine

/-- `s[j]` of a byte sequence (00_scope.md R10). No rule reads at or past the length of its sequence. -/
def byteAt (s : List Byte) (j : Nat) : Byte := s.getD j 0

/-- `b[hi:lo]` with hi - lo + 1 = n bits (00_scope.md R10). -/
def bits (b : Byte) (lo n : Nat) : BitVec n := b.extractLsb' lo n

/-- `b[i]` (00_scope.md R10). -/
def bit (b : Byte) (i : Nat) : Bool := b.getLsbD i

/-- `zext_16(VAL)`: the value field of format W, for a `VAL` of any width (30_encoding.md R78). -/
def zext16 {n : Nat} (v : BitVec n) : BitVec 16 := v.setWidth 16

/-- `F[15:8]` (30_encoding.md R78). -/
def highByte (f : BitVec 16) : Byte := f.extractLsb' 8 8

/-- `F[7:0]` (30_encoding.md R78). -/
def lowByte (f : BitVec 16) : Byte := f.extractLsb' 0 8

/-- `(hi << 8) | lo`: a 16-bit value, high byte first (20_memory.md R52, 30_encoding.md R79). -/
def be16 (hi lo : Byte) : BitVec 16 := (hi.setWidth 16 <<< 8) ||| lo.setWidth 16

/-- `lo | (hi << 8)`: a 16-bit value, low byte first (30_encoding.md R82). -/
def le16 (lo hi : Byte) : BitVec 16 := lo.setWidth 16 ||| (hi.setWidth 16 <<< 8)

/-- A 32-bit value, low byte first (30_encoding.md R82). -/
def le32 (b0 b1 b2 b3 : Byte) : BitVec 32 :=
  b0.setWidth 32 ||| (b1.setWidth 32 <<< 8) ||| (b2.setWidth 32 <<< 16) ||| (b3.setWidth 32 <<< 24)

/-- A 24-bit value, high byte first (44_edid_decode.md R173). -/
def be24 (b0 b1 b2 : Byte) : BitVec 24 :=
  (b0.setWidth 24 <<< 16) ||| (b1.setWidth 24 <<< 8) ||| b2.setWidth 24

/-- `(msb_byte << 2) | lsb_bits`: a chromaticity coordinate (30_encoding.md R83). -/
def chroma10 (msb : Byte) (lsb : BitVec 2) : BitVec 10 := (msb.setWidth 10 <<< 2) ||| lsb.setWidth 10

/-- `(high_nibble << 8) | low_byte` (30_encoding.md R84). -/
def split12 (nibble : BitVec 4) (low : Byte) : BitVec 12 := (nibble.setWidth 12 <<< 8) ||| low.setWidth 12

/-- `(high_pair << 8) | low_byte` (30_encoding.md R84). -/
def split10 (pair : BitVec 2) (low : Byte) : BitVec 10 := (pair.setWidth 10 <<< 8) ||| low.setWidth 10

/-- `(high_pair << 4) | low_nibble` (30_encoding.md R84). -/
def split6 (pair : BitVec 2) (nibble : BitVec 4) : BitVec 6 := (pair.setWidth 6 <<< 4) ||| nibble.setWidth 6

/-- `cat(b[hi:lo], b[i])` as `STEREO` uses it: two bits above one (45_edid_descriptors.md R203). -/
def cat3 (hi : BitVec 2) (lo : BitVec 1) : BitVec 3 := hi ++ lo

/-- The n bytes of s from index j, as an array of a record field (45_edid_descriptors.md R205 to R207). -/
def bytesAt (s : List Byte) (j n : Nat) : Vector Byte n := Vector.ofFn fun i => byteAt s (j + i.val)

/-- Slot k of an EDID block: `e[54 + 18k .. 71 + 18k]` (30_encoding.md R85, 45_edid_descriptors.md R200). -/
def slotOf (e : List Byte) (k : Nat) : List Byte := (e.drop (54 + 18 * k)).take 18

/-- Index in `EDBUF` of the first byte of slot k (30_encoding.md R85). -/
def slotBase (k : Fin 4) : Nat := 54 + 18 * k.val

end Sys2Proof.Machine
end

