-- ==== Sys2Proof/Syntax.lean ====
section
/-! DEFINITION. The syntax: one constructor per row of spec/opcode_table.json (30_encoding.md R94), and the encoding space
each row is read from. The table has three groups: four commands on the command port, three frame formats, nine
descriptor-slot patterns. The same bytes mean different rows in different spaces, so an encoding is a port and bytes. -/

namespace Sys2Proof

/-- The encoding space a row of the table is read from (30_encoding.md R94). DESIGN CHOICE, log entry 8: the spec's host
uses `command` only; the other ports let the frame and slot rows run as steps of their own. -/
inductive Port where
  /-- The command port `CMD` (R70). -/
  | command
  /-- `TXBUF`: a request frame, format W or R (R74, R75). -/
  | request
  /-- `RXBUF`: a reply frame, format P (R76). -/
  | reply
  /-- Slot k of `EDBUF`, bytes 54 + 18k to 71 + 18k (R85, 45_edid_descriptors.md R200). -/
  | slot (k : Fin 4)
deriving DecidableEq, Repr, Inhabited

/-- The rows of spec/opcode_table.json. -/
inductive Instr where
  /-- `ENCW` (41_ddc_encode.md R111). -/
  | encw
  /-- `ENCR` (41_ddc_encode.md R114). -/
  | encr
  /-- `DECR` (42_ddc_decode.md R121). -/
  | decr
  /-- `EDID` (44_edid_decode.md R163). -/
  | edid
  /-- `FRAME_W`: `51 84 03 cid vh vl chk` (30_encoding.md R74). -/
  | frameW (cid vh vl chk : Byte)
  /-- `FRAME_R`: `51 82 01 cid chk` (30_encoding.md R75). -/
  | frameR (cid chk : Byte)
  /-- `FRAME_P`: `rsrc 1nnnnnnn ropc 00 echo [typ if T = 1] mh ml sh sl extra* chk`, `count` the seven bits n
  (30_encoding.md R76). -/
  | frameP (rsrc : Byte) (count : BitVec 7) (ropc echo : Byte) (typ : Option Byte) (mh ml sh sl : Byte)
      (extra : List Byte) (chk : Byte)
  /-- `SLOT_UNUSED_ZERO`: 18 bytes 0x00 (45_edid_descriptors.md R208). -/
  | slotUnusedZero (k : Fin 4)
  /-- `SLOT_UNUSED_ONES`: 18 bytes 0xFF (45_edid_descriptors.md R208). -/
  | slotUnusedOnes (k : Fin 4)
  /-- `SLOT_TEXT_SERIAL`: `00 00 00 FF` and `s[4..17]` (45_edid_descriptors.md R205). -/
  | slotTextSerial (k : Fin 4) (body : List Byte)
  /-- `SLOT_TEXT_COMMENT`: `00 00 00 FE` and `s[4..17]` (45_edid_descriptors.md R205). -/
  | slotTextComment (k : Fin 4) (body : List Byte)
  /-- `SLOT_RANGE`: `00 00 00 FD` and `s[4..17]` (45_edid_descriptors.md R206). -/
  | slotRange (k : Fin 4) (body : List Byte)
  /-- `SLOT_TEXT_NAME`: `00 00 00 FC` and `s[4..17]` (45_edid_descriptors.md R205). -/
  | slotTextName (k : Fin 4) (body : List Byte)
  /-- `SLOT_WHITE`: `00 00 00 FB` and `s[4..17]` (45_edid_descriptors.md R207). -/
  | slotWhite (k : Fin 4) (body : List Byte)
  /-- `SLOT_UNUSED_OTHER`: `00 00` and `s[2..17]`, not one of the rows before it (45_edid_descriptors.md R208). -/
  | slotUnusedOther (k : Fin 4) (body : List Byte)
  /-- `SLOT_DTD`: `s[0..17]` with a clock field that is not zero, not all 0xFF (45_edid_descriptors.md R203). -/
  | slotDtd (k : Fin 4) (body : List Byte)
deriving DecidableEq, Repr

/-- Why a byte sequence is no encoding of its port. -/
inductive DecodeError where
  /-- Not one byte, or a `CMD` outside its four values (10_state.md R26). -/
  | notACommand
  /-- Neither format W nor format R (30_encoding.md R74, R75). -/
  | notARequestFrame
  /-- Not format P: shorter than 10 + T bytes, bit 7 of the length byte clear, or a result code that is not 0x00
  (30_encoding.md R76). -/
  | notAReplyFrame
  /-- Not 18 bytes (30_encoding.md R85). -/
  | notASlot
deriving DecidableEq, Repr

end Sys2Proof
end

