-- ==== Sys2Proof/WellFormed.lean ====
section
/-! DEFINITION. Which terms of Instr are encodings the spec gives: the constraints a row names and its pattern cannot
express (30_encoding.md R94). -/

namespace Sys2Proof

open Sys2Proof.Machine

/-- The five tags of display descriptors (30_encoding.md R85). -/
def knownTags : List Byte := [0xFF, 0xFE, 0xFD, 0xFC, 0xFB]

/-- At a setting of the reply parameters, an instruction is well formed when its operands meet every constraint of its row: a request frame carries the
checksum of R73; a reply frame has the type byte exactly when T = 1, the length byte of R72 and the checksum of R124;
a slot has 18 bytes and is not claimed by an earlier row of the table. The echo of a reply is compared with `CID` when
it runs and is no constraint here. -/
def Instr.wellFormedAt (p : Config.Params) : Instr → Bool
  | .encw => true
  | .encr => true
  | .decr => true
  | .edid => true
  | .frameW cid vh vl chk => chk == requestChecksum (frameWHead cid vh vl)
  | .frameR cid chk => chk == requestChecksum (frameRHead cid)
  | .frameP rsrc count ropc echo typ mh ml sh sl extra chk =>
      let f := replyBytes rsrc count ropc echo typ mh ml sh sl extra chk
      (typ.isSome == (p.typeByte == 1)) && (f.length == count.toNat + 3) &&
        (chk == xorFold p.rxSeed f.dropLast)
  | .slotUnusedZero _ => true
  | .slotUnusedOnes _ => true
  | .slotTextSerial _ body => body.length == 14
  | .slotTextComment _ body => body.length == 14
  | .slotRange _ body => body.length == 14
  | .slotTextName _ body => body.length == 14
  | .slotWhite _ body => body.length == 14
  | .slotUnusedOther _ body =>
      body.length == 16 && body != List.replicate 16 0x00 &&
        !(byteAt body 0 == 0x00 && knownTags.contains (byteAt body 1))
  | .slotDtd _ body =>
      body.length == 18 && !(byteAt body 0 == 0x00 && byteAt body 1 == 0x00) && body != List.replicate 18 0xFF

/-- Well formed at this hardware's setting. -/
def Instr.wellFormed (i : Instr) : Bool := i.wellFormedAt Config.hw

end Sys2Proof
end

