-- ==== Sys2Proof/Decode.lean ====
section
/-! DEFINITION. The decoder, total on any bytes and rejecting by name, and after it the encoder, both from the patterns of
spec/opcode_table.json (30_encoding.md R70, R74 to R76, R85, R94). -/

namespace Sys2Proof

open Sys2Proof.Machine

/-- The four values of `CMD` (30_encoding.md R70). -/
def decodeCommand (bs : List Byte) : Except DecodeError Instr :=
  match bs with
  | [b] =>
    if b = 0 then .ok .encw
    else if b = 1 then .ok .encr
    else if b = 2 then .ok .decr
    else if b = 3 then .ok .edid
    else .error .notACommand
  | _ => .error .notACommand

/-- Formats W and R by their first three bytes and their length (30_encoding.md R74, R75). The checksum byte is a constraint
of the row and no part of its pattern: it is kept as an operand and `Instr.wellFormed` tests it. -/
def decodeRequest (bs : List Byte) : Except DecodeError Instr :=
  match bs with
  | [src, len, opc, cid, vh, vl, chk] =>
    if [src, len, opc] = [Config.srcAddr, lenByte 4, Config.opcSet] then .ok (.frameW cid vh vl chk)
    else .error .notARequestFrame
  | [src, len, opc, cid, chk] =>
    if [src, len, opc] = [Config.srcAddr, lenByte 2, Config.opcGet] then .ok (.frameR cid chk)
    else .error .notARequestFrame
  | _ => .error .notARequestFrame

/-- The type byte of a reply, present only when T = 1 (30_encoding.md R76), and what follows it. -/
def splitType (t : Nat) (rest : List Byte) : Option Byte × List Byte :=
  if t = 1 then (rest.head?, rest.tail) else (none, rest)

/-- Format P: bit 7 of byte 1 set, byte 3 the result code 0x00, at least 10 + T bytes (30_encoding.md R76). The length
equation, the checksum and the echo are constraints checked when it runs. Byte 3, not byte 2 as the mask of the table's
row has it, is the result code: log entry 9. -/
def decodeReply (p : Config.Params) (bs : List Byte) : Except DecodeError Instr :=
  match bs with
  | rsrc :: len :: ropc :: rc :: echo :: rest =>
    if bit len 7 = true ∧ rc = Config.rcOk then
      match splitType p.typeByte.val rest with
      | (typ, mh :: ml :: sh :: sl :: tail) =>
        match tail.getLast? with
        | some chk => .ok (.frameP rsrc (bits len 0 7) ropc echo typ mh ml sh sl tail.dropLast chk)
        | none => .error .notAReplyFrame
      | _ => .error .notAReplyFrame
    else .error .notAReplyFrame
  | _ => .error .notAReplyFrame

/-- The nine slot rows, tried in the table's order (30_encoding.md R94). -/
def decodeSlot (k : Fin 4) (s : List Byte) : Except DecodeError Instr :=
  if s.length ≠ 18 then .error .notASlot
  else if s = List.replicate 18 0x00 then .ok (.slotUnusedZero k)
  else if s = List.replicate 18 0xFF then .ok (.slotUnusedOnes k)
  else if s.take 4 = [0x00, 0x00, 0x00, 0xFF] then .ok (.slotTextSerial k (s.drop 4))
  else if s.take 4 = [0x00, 0x00, 0x00, 0xFE] then .ok (.slotTextComment k (s.drop 4))
  else if s.take 4 = [0x00, 0x00, 0x00, 0xFD] then .ok (.slotRange k (s.drop 4))
  else if s.take 4 = [0x00, 0x00, 0x00, 0xFC] then .ok (.slotTextName k (s.drop 4))
  else if s.take 4 = [0x00, 0x00, 0x00, 0xFB] then .ok (.slotWhite k (s.drop 4))
  else if s.take 2 = [0x00, 0x00] then .ok (.slotUnusedOther k (s.drop 2))
  else .ok (.slotDtd k s)

/-- The instruction the bytes of a port encode, at a setting of the reply parameters. -/
def decodeAt (p : Config.Params) (port : Port) (bs : List Byte) : Except DecodeError Instr :=
  match port with
  | .command => decodeCommand bs
  | .request => decodeRequest bs
  | .reply => decodeReply p bs
  | .slot k => decodeSlot k bs

/-- The instruction the bytes of a port encode, at this hardware's setting. -/
def decode (port : Port) (bs : List Byte) : Except DecodeError Instr := decodeAt Config.hw port bs

/-- The port and the bytes of an instruction. -/
def encode : Instr → Port × List Byte
  | .encw => (.command, [0])
  | .encr => (.command, [1])
  | .decr => (.command, [2])
  | .edid => (.command, [3])
  | .frameW cid vh vl chk => (.request, frameWHead cid vh vl ++ [chk])
  | .frameR cid chk => (.request, frameRHead cid ++ [chk])
  | .frameP rsrc count ropc echo typ mh ml sh sl extra chk =>
      (.reply, replyBytes rsrc count ropc echo typ mh ml sh sl extra chk)
  | .slotUnusedZero k => (.slot k, List.replicate 18 0x00)
  | .slotUnusedOnes k => (.slot k, List.replicate 18 0xFF)
  | .slotTextSerial k body => (.slot k, [0x00, 0x00, 0x00, 0xFF] ++ body)
  | .slotTextComment k body => (.slot k, [0x00, 0x00, 0x00, 0xFE] ++ body)
  | .slotRange k body => (.slot k, [0x00, 0x00, 0x00, 0xFD] ++ body)
  | .slotTextName k body => (.slot k, [0x00, 0x00, 0x00, 0xFC] ++ body)
  | .slotWhite k body => (.slot k, [0x00, 0x00, 0x00, 0xFB] ++ body)
  | .slotUnusedOther k body => (.slot k, [0x00, 0x00] ++ body)
  | .slotDtd k body => (.slot k, body)

/-- How many bytes an encoding of each row has: 1, 7, 5, `RXLEN`, 18 (30_encoding.md R70, R74 to R77, R85). -/
def encodedLength : Instr → Nat
  | .encw => 1
  | .encr => 1
  | .decr => 1
  | .edid => 1
  | .frameW _ _ _ _ => 7
  | .frameR _ _ => 5
  | .frameP _ count _ _ _ _ _ _ _ _ _ => count.toNat + 3
  | .slotUnusedZero _ => 18
  | .slotUnusedOnes _ => 18
  | .slotTextSerial _ _ => 18
  | .slotTextComment _ _ => 18
  | .slotRange _ _ => 18
  | .slotTextName _ _ => 18
  | .slotWhite _ _ => 18
  | .slotUnusedOther _ _ => 18
  | .slotDtd _ _ => 18

/-- The low n bytes of a number, the most significant first: how the table writes a pattern ("byte 0 leftmost", R94). -/
def bytesOfNat : Nat → Nat → List Byte
  | 0, _ => []
  | n + 1, w => BitVec.ofNat 8 (w / 256 ^ n) :: bytesOfNat n w

/-- The 18 bytes of a slot whose bits are w, numbered so that `s[0..3]` are the first 32-bit word, its byte 0 leftmost, and
the later words count on from it (log entry 10). -/
def slotBytesOfNat (w : Nat) : List Byte :=
  bytesOfNat 4 w ++ bytesOfNat 4 (w / 2 ^ 32) ++ bytesOfNat 4 (w / 2 ^ 64) ++ bytesOfNat 4 (w / 2 ^ 96) ++
    bytesOfNat 2 (w / 2 ^ 128)

/-- Where the hardware stores a row of nbits bits, and as which bytes (log entry 10): up to 8 bits the two bits of the
command port; up to 32 bits the first four bytes of a reply (bit 7 of byte 1 set) or of slot 0, zeros after them; 40 and
56 bits a request frame; more a whole slot. -/
def tablePlace (nbits w : Nat) : Port × List Byte :=
  if nbits ≤ 8 then (.command, [BitVec.ofNat 8 (w % 4)])
  else if nbits ≤ 32 then
    if bit (byteAt (bytesOfNat 4 w) 1) 7 = true then
      (.reply, bytesOfNat 4 w ++ List.replicate (6 + Config.hw.typeByte.val) 0x00)
    else (.slot 0, slotBytesOfNat (w % 2 ^ 32))
  else if nbits ≤ 40 then (.request, bytesOfNat 5 w)
  else if nbits ≤ 56 then (.request, bytesOfNat 7 w)
  else (.slot 0, slotBytesOfNat w)

/-- The instruction the decoder reads from a table row's bits. -/
def decodeTableWord (nbits w : Nat) : Option Instr :=
  (decode (tablePlace nbits w).1 (tablePlace nbits w).2).toOption

end Sys2Proof
end

