-- ==== Sys2Proof/Machine/State.lean ====
section
/-! DEFINITION. The state of the block (10_state.md R22): operand registers, three byte buffers, three result groups; the
reasons a step can stop; the state after reset; the plain updates of a result group or an operand. -/

namespace Sys2Proof.Machine

/-- The cells of one buffer that hold a value, as (index, byte), indices strictly rising. An unlisted cell holds no value
(10_state.md R45), so no listed entry can equal what an unlisted one reads as. -/
abbrev Memory := List Host.Cell

/-- The three address spaces (20_memory.md R50). -/
inductive Buffer where
  | tx
  | rx
  | ed
deriving DecidableEq, Repr

/-- Why a step stops with a fault. -/
inductive Fault where
  /-- A command read a buffer cell that nothing has written (93_implementation_defined.md U5: "`fault`"). Raised by readCell,
  so by `DECR`, `EDID` and by the fetch from a buffer. Safe: the hardware would go on with some byte. -/
  | unwrittenCell
  /-- An index outside the buffer's cells (20_memory.md R50). Raised by readCell; no command computes such an index (R57).
  Safe. -/
  | noSuchCell
deriving DecidableEq, Repr

/-- Why a step is refused. -/
inductive Refusal where
  /-- An instruction whose arm has no meaning. Raised by no arm of this model. Safe. -/
  | notModelled (mnemonic : String)
  /-- `DECR` issued with `RXLEN > RXCAP`: "a model refuses it" (10_state.md R26). Raised by execDecr and by the fetch from
  the reply port. Safe. -/
  | rxlenOverCapacity
  /-- `EDID` issued with `EDLEN > 128`: "a model refuses it" (10_state.md R26). Raised by execEdid. Safe. -/
  | edlenOverBuffer
  /-- The port of the model's own holds bytes that encode no row (log entry 8). Raised by the fetch, never from the command
  port. Safe. -/
  | noFrame (why : DecodeError)
  /-- A slot was selected with `EDLEN` not 128, so no cell of `EDBUF` may be read (20_memory.md R57; log entry 8). Raised by
  the fetch from a slot port. Safe. -/
  | noSlot
deriving DecidableEq, Repr

/-- The state of the block. -/
structure State where
  /-- `CMD` (30_encoding.md R70). -/
  cmd : BitVec 2
  /-- `CID` (10_state.md R25). -/
  cid : Byte
  /-- `VAL`, `VW` bits (10_state.md R25). -/
  val : BitVec Config.vw
  /-- `RXLEN` (10_state.md R25). -/
  rxlen : BitVec 8
  /-- `EDLEN` (10_state.md R25). -/
  edlen : BitVec 8
  /-- `TXBUF`, cells 0 to 6 (10_state.md R28). -/
  txbuf : Memory
  /-- `RXBUF`, cells 0 to `RXCAP` - 1 (10_state.md R28). -/
  rxbuf : Memory
  /-- `EDBUF`, cells 0 to 127 (10_state.md R28). -/
  edbuf : Memory
  /-- `TXLEN` (10_state.md R30). -/
  txlen : BitVec 3
  /-- `RR_VALID` (10_state.md R31). -/
  rrValid : Bool
  /-- `RR_FAIL` (10_state.md R31). -/
  rrFail : BitVec 3
  /-- `RR_MAX` (10_state.md R31). -/
  rrMax : BitVec 16
  /-- `RR_CUR` (10_state.md R31). -/
  rrCur : BitVec 16
  /-- `ED_OK` (10_state.md R35). -/
  edOk : Bool
  /-- `ED_ERR` (10_state.md R35). -/
  edErr : BitVec 2
  /-- `ED_CSUM_OK` (10_state.md R35). -/
  edCsumOk : Bool
  /-- The EDIDRecord (10_state.md R36 to R39). -/
  record : Record
  /-- The model's own field: the encoding space of the next step (log entry 8). -/
  port : Port
  /-- The model's own field: the counter the free values are applied to (log entry 4). -/
  fresh : Nat
deriving DecidableEq, Repr

/-- The EDIDRecord after reset. The spec gives no value (10_state.md R45): DESIGN CHOICE, unsafe, log entry 2. -/
def Record.zero : Record where
  mfgId := 0
  mfgL1 := 0
  mfgL2 := 0
  mfgL3 := 0
  product := 0
  serial := 0
  week := 0
  year := 0
  version := 0
  revision := 0
  vin := .analog 0 false false false false false
  hsizeCm := 0
  vsizeCm := 0
  gamma := 0
  pwrStandby := false
  pwrSuspend := false
  pwrActiveoff := false
  dispType := 0
  srgb := false
  prefTiming := false
  gtf := false
  redX := 0
  redY := 0
  greenX := 0
  greenY := 0
  blueX := 0
  blueY := 0
  whiteX := 0
  whiteY := 0
  est := 0
  std := Vector.replicate 8 ⟨false, 0, 0, 0⟩
  desc := Vector.replicate 4 .unused
  extCount := 0
  checksum := 0

/-- The block right after reset: no buffer cell holds a value (10_state.md R45). Every register's value is a DESIGN CHOICE,
unsafe: log entries 1 and 2; the model's own fields: log entries 4 and 8. -/
def State.reset : State where
  cmd := 0
  cid := 0
  val := 0
  rxlen := 0
  edlen := 0
  txbuf := []
  rxbuf := []
  edbuf := []
  txlen := 0
  rrValid := false
  rrFail := 0
  rrMax := 0
  rrCur := 0
  edOk := false
  edErr := 0
  edCsumOk := false
  record := Record.zero
  port := .command
  fresh := 0

/-- Write result group TX (10_state.md R30). -/
def State.setTx (s : State) (len : BitVec 3) (buf : Memory) : State :=
  { s with txlen := len, txbuf := buf }

/-- Write result group RR (10_state.md R31). -/
def State.setRr (s : State) (valid : Bool) (fail : BitVec 3) (max cur : BitVec 16) : State :=
  { s with rrValid := valid, rrFail := fail, rrMax := max, rrCur := cur }

/-- Write result group ED (10_state.md R35, R36). -/
def State.setEd (s : State) (ok : Bool) (err : BitVec 2) (csum : Bool) (r : Record) : State :=
  { s with edOk := ok, edErr := err, edCsumOk := csum, record := r }

/-- Write the record registers alone. -/
def State.setRecord (s : State) (r : Record) : State :=
  { s with record := r }

/-- Advance the counter of the free values. -/
def State.bump (s : State) : State :=
  { s with fresh := s.fresh + 1 }

/-- Select the encoding space of the next step. -/
def State.setPort (s : State) (p : Port) : State :=
  { s with port := p }

/-- The host writes `CMD` (10_state.md R25). -/
def State.setCmd (s : State) (c : BitVec 2) : State :=
  { s with cmd := c }

/-- The host writes `CID` (10_state.md R25). -/
def State.setCid (s : State) (c : Byte) : State :=
  { s with cid := c }

/-- The host writes `VAL` (10_state.md R25). -/
def State.setVal (s : State) (v : BitVec Config.vw) : State :=
  { s with val := v }

/-- The host writes `RXLEN` and `RXBUF` (10_state.md R25, R28). -/
def State.setRx (s : State) (len : BitVec 8) (buf : Memory) : State :=
  { s with rxlen := len, rxbuf := buf }

/-- The host writes `EDLEN` and `EDBUF` (10_state.md R25, R28). -/
def State.setEdIn (s : State) (len : BitVec 8) (buf : Memory) : State :=
  { s with edlen := len, edbuf := buf }

end Sys2Proof.Machine
end

