-- ==== Sys2Proof/Machine/Ops.lean ====
section
/-! DEFINITION. The named operations over buffers and result groups: reading and writing a buffer (20_memory.md R68), writing
each result group, and `raise` (00_scope.md R12), which is what this block has in the place of taking an exception: one
shared operation per result group writes the failure (60_exceptions.md R230 to R232). There is no return from one (R239). -/

namespace Sys2Proof.Machine

/-- What cell i holds; none where nothing has written it. -/
def Memory.read : Memory → Nat → Option Byte
  | [], _ => none
  | (a, b) :: t, i => if a = i then some b else Memory.read t i

/-- Set cell i, keeping the indices strictly rising. -/
def Memory.write : Memory → Nat → Byte → Memory
  | [], i, v => [(i, v)]
  | (a, b) :: t, i, v =>
    if i < a then (i, v) :: (a, b) :: t
    else if i = a then (i, v) :: t
    else (a, b) :: Memory.write t i v

/-- Set the cells from i on, one byte each, the first byte at the lowest index (20_memory.md R55). -/
def Memory.writeRange : Memory → Nat → List Byte → Memory
  | m, _, [] => m
  | m, i, b :: bs => Memory.writeRange (Memory.write m i b) (i + 1) bs

/-- The indices are strictly rising. -/
def Memory.rising : Memory → Bool
  | [] => true
  | [_] => true
  | (a, _) :: (b, c) :: t => decide (a < b) && Memory.rising ((b, c) :: t)

/-- The canonical form of a buffer of n cells: indices strictly rising, each below n. An unlisted cell holds no value, so no
entry can equal it. -/
def Memory.wf (n : Nat) (m : Memory) : Bool :=
  Memory.rising m && m.all fun c => decide (c.1 < n)

/-- The number of cells of a buffer (10_state.md R28). -/
def Buffer.cells : Buffer → Nat
  | .tx => Config.txCells
  | .rx => Config.rxcap
  | .ed => Config.edidLen

/-- The contents of a buffer. -/
def State.buf (s : State) : Buffer → Memory
  | .tx => s.txbuf
  | .rx => s.rxbuf
  | .ed => s.edbuf

/-- One cell of a buffer of n cells (20_memory.md R50, R68). -/
def readCell (n : Nat) (m : Memory) (i : Nat) : Except Fault Byte :=
  if i < n then
    match Memory.read m i with
    | some v => .ok v
    | none => .error .unwrittenCell
  else .error .noSuchCell

/-- k cells of a buffer of n cells, one at a time from index i on (00_scope.md R11). -/
def readCells (n : Nat) (m : Memory) (i : Nat) : Nat → Except Fault (List Byte)
  | 0 => .ok []
  | k + 1 =>
    match readCell n m i with
    | .error f => .error f
    | .ok v =>
      match readCells n m (i + 1) k with
      | .error f => .error f
      | .ok vs => .ok (v :: vs)

/-- `MemRead(B:i, 1)` (20_memory.md R68). Changes nothing (R59). -/
def memRead (s : State) (b : Buffer) (i : Nat) : Except Fault Byte :=
  readCell b.cells (s.buf b) i

/-- `MemRead(B:i, k)`: the sequence of k single-byte reads at i, i+1, ... (00_scope.md R11). -/
def readRange (s : State) (b : Buffer) (i k : Nat) : Except Fault (List Byte) :=
  readCells b.cells (s.buf b) i k

/-- The failures of `DECR` (60_exceptions.md R231). -/
inductive ReplyFailure where
  | length
  | checksum
  | declined
  | echo
deriving DecidableEq, Repr

/-- How `DECR` ends: every check passed, with the two values, or the first failure (42_ddc_decode.md R121). -/
inductive ReplyVerdict where
  | valid (max cur : BitVec 16)
  | failed (f : ReplyFailure)
deriving DecidableEq, Repr

/-- The structural failures of `EDID` (60_exceptions.md R232). -/
inductive EdidFailure where
  | short
  | header
deriving DecidableEq, Repr

/-- The code `RR_FAIL` reports (60_exceptions.md R231). -/
def replyFailCode : ReplyFailure → BitVec 3
  | .length => 1
  | .checksum => 2
  | .declined => 3
  | .echo => 4

/-- The code `ED_ERR` reports (60_exceptions.md R232). -/
def edidErrCode : EdidFailure → BitVec 2
  | .short => 1
  | .header => 2

/-- Write result group TX with a 7-byte frame (41_ddc_encode.md R111). -/
def emitW (frame : List Byte) (s : State) : State :=
  s.setTx 7 (Memory.writeRange s.txbuf 0 frame)

/-- Write result group TX with a 5-byte frame; cells 5 and 6 become free values (41_ddc_encode.md R114, U3). -/
def emitR (frame : List Byte) (s : State) : State :=
  (s.setTx 5 (Memory.writeRange s.txbuf 0
    (frame ++ [Config.freeTx5 s.fresh, Config.freeTx6 s.fresh]))).bump

/-- `raise` in `DECR`: `RR_VALID` 0, the code, `RR_MAX` and `RR_CUR` unspecified (42_ddc_decode.md R129, U1). -/
def raiseReply (f : ReplyFailure) (s : State) : State :=
  (s.setRr false (replyFailCode f) (Config.freeRrMax s.fresh) (Config.freeRrCur s.fresh)).bump

/-- `DECR` with every check passed (42_ddc_decode.md R121). -/
def acceptReply (max cur : BitVec 16) (s : State) : State :=
  s.setRr true 0 max cur

/-- Write result group RR as `DECR` ended. -/
def putReply (v : ReplyVerdict) (s : State) : State :=
  match v with
  | .valid max cur => acceptReply max cur s
  | .failed f => raiseReply f s

/-- `raise` in `EDID`: `ED_OK` 0, the code, the checksum verdict, every record register unspecified
(44_edid_decode.md R161, U2). -/
def raiseEdid (f : EdidFailure) (csum : Bool) (s : State) : State :=
  (s.setEd false (edidErrCode f) csum (Config.freeRecord s.fresh)).bump

/-- `EDID` with a structural success (44_edid_decode.md R163). -/
def acceptEdid (csum : Bool) (r : Record) (s : State) : State :=
  s.setEd true 0 csum r

/-- `DESC[k] <- d` (44_edid_decode.md R163). -/
def putDesc (k : Fin 4) (d : Desc) (s : State) : State :=
  s.setRecord { s.record with desc := s.record.desc.set k.val d k.isLt }

end Sys2Proof.Machine
end

