-- ==== Sys2Proof/Machine/Flags.lean ====
section
/-! DEFINITION. The status flags (10_state.md R41): what sets each. No command reads a flag. -/

namespace Sys2Proof.Machine

/-- `ED_CSUM_OK`: the 128 bytes sum to 0 modulo 256 (44_edid_decode.md R162). -/
def csumVerdict (e : List Byte) : Bool := sum8 e == 0x00

/-- `ED_OK`: the eight header bytes are the signature (44_edid_decode.md R161). -/
def headerPresent (e : List Byte) : Bool := e.take 8 == Config.edidHeader

/-- `RR_VALID`: every check of `DECR` passed (10_state.md R31). -/
def ReplyVerdict.isValid : ReplyVerdict → Bool
  | .valid _ _ => true
  | .failed _ => false

/-- `RR_FAIL`: which check failed first, 0 when none did (10_state.md R31). -/
def ReplyVerdict.code : ReplyVerdict → BitVec 3
  | .valid _ _ => 0
  | .failed f => replyFailCode f

end Sys2Proof.Machine
end

