-- ==== Sys2Proof/Machine/Slot.lean ====
section
/-! DEFINITION. The descriptor slots (45_edid_descriptors.md): the fields of each variant, the selector that `EDID` uses, and
the nine slot rows of the table. -/

namespace Sys2Proof.Machine

/-- `DTD` fields (45_edid_descriptors.md R203). -/
def dtdOf (s : List Byte) : DetailedTiming where
  pixclk := le16 (byteAt s 0) (byteAt s 1)
  hact := split12 (bits (byteAt s 4) 4 4) (byteAt s 2)
  hblank := split12 (bits (byteAt s 4) 0 4) (byteAt s 3)
  vact := split12 (bits (byteAt s 7) 4 4) (byteAt s 5)
  vblank := split12 (bits (byteAt s 7) 0 4) (byteAt s 6)
  hso := split10 (bits (byteAt s 11) 6 2) (byteAt s 8)
  hspw := split10 (bits (byteAt s 11) 4 2) (byteAt s 9)
  vso := split6 (bits (byteAt s 11) 2 2) (bits (byteAt s 10) 4 4)
  vspw := split6 (bits (byteAt s 11) 0 2) (bits (byteAt s 10) 0 4)
  himgMm := split12 (bits (byteAt s 14) 4 4) (byteAt s 12)
  vimgMm := split12 (bits (byteAt s 14) 0 4) (byteAt s 13)
  hborder := byteAt s 15
  vborder := byteAt s 16
  interlaced := bit (byteAt s 17) 7
  stereo := cat3 (bits (byteAt s 17) 5 2) (bits (byteAt s 17) 0 1)
  syncType := bits (byteAt s 17) 3 2
  syncOpt := bits (byteAt s 17) 1 2

/-- `TLEN`: the least j with `DATA[j]` = 0x0A, or 13 if there is none (45_edid_descriptors.md R205). -/
def textLen (data : List Byte) : BitVec 4 :=
  BitVec.ofNat 4 (data.findIdx fun b => b == 0x0A)

/-- `TEXT` fields (45_edid_descriptors.md R205). -/
def textOf (kind : TextKind) (s : List Byte) : Desc :=
  .text kind (bytesAt s 5 13) (textLen (bytesAt s 5 13).toList)

/-- `RANGE` fields (45_edid_descriptors.md R206). -/
def rangeOf (s : List Byte) : RangeLimits where
  vmin := byteAt s 5
  vmax := byteAt s 6
  hmin := byteAt s 7
  hmax := byteAt s 8
  pclkMax := byteAt s 9
  formula := byteAt s 10
  tail := bytesAt s 11 7

/-- `WP[i]` at o = 5 + 5i (45_edid_descriptors.md R207). -/
def whitePointOf (s : List Byte) (o : Nat) : WhitePoint where
  index := byteAt s o
  wx := chroma10 (byteAt s (o + 2)) (bits (byteAt s (o + 1)) 2 2)
  wy := chroma10 (byteAt s (o + 3)) (bits (byteAt s (o + 1)) 0 2)
  wgamma := byteAt s (o + 4)

/-- `WHITE` fields (45_edid_descriptors.md R207). -/
def whiteOf (s : List Byte) : Desc :=
  .white (whitePointOf s 5) (whitePointOf s 10) (bytesAt s 15 3)

/-- The selector `slot(s)`: the first test that applies decides (45_edid_descriptors.md R201). -/
def slotDesc (s : List Byte) : Desc :=
  if (s.all fun b => b == 0x00) || (s.all fun b => b == 0xFF) then .unused
  else if byteAt s 0 ≠ 0x00 ∨ byteAt s 1 ≠ 0x00 then .dtd (dtdOf s)
  else if byteAt s 2 ≠ 0x00 then .unused
  else if byteAt s 3 = 0xFF then textOf .serial s
  else if byteAt s 3 = 0xFE then textOf .comment s
  else if byteAt s 3 = 0xFD then .range (rangeOf s)
  else if byteAt s 3 = 0xFC then textOf .name s
  else if byteAt s 3 = 0xFB then whiteOf s
  else .unused

/-- `SLOT_UNUSED_ZERO` (45_edid_descriptors.md R208). -/
def execSlotUnusedZero (k : Fin 4) (s : State) : Host.Outcome State Fault Refusal :=
  .next (putDesc k .unused s)

/-- `SLOT_UNUSED_ONES` (45_edid_descriptors.md R208). -/
def execSlotUnusedOnes (k : Fin 4) (s : State) : Host.Outcome State Fault Refusal :=
  .next (putDesc k .unused s)

/-- `SLOT_TEXT_SERIAL` (45_edid_descriptors.md R205). -/
def execSlotTextSerial (k : Fin 4) (body : List Byte) (s : State) : Host.Outcome State Fault Refusal :=
  .next (putDesc k (textOf .serial ([0x00, 0x00, 0x00, 0xFF] ++ body)) s)

/-- `SLOT_TEXT_COMMENT` (45_edid_descriptors.md R205). -/
def execSlotTextComment (k : Fin 4) (body : List Byte) (s : State) : Host.Outcome State Fault Refusal :=
  .next (putDesc k (textOf .comment ([0x00, 0x00, 0x00, 0xFE] ++ body)) s)

/-- `SLOT_RANGE` (45_edid_descriptors.md R206). -/
def execSlotRange (k : Fin 4) (body : List Byte) (s : State) : Host.Outcome State Fault Refusal :=
  .next (putDesc k (.range (rangeOf ([0x00, 0x00, 0x00, 0xFD] ++ body))) s)

/-- `SLOT_TEXT_NAME` (45_edid_descriptors.md R205). -/
def execSlotTextName (k : Fin 4) (body : List Byte) (s : State) : Host.Outcome State Fault Refusal :=
  .next (putDesc k (textOf .name ([0x00, 0x00, 0x00, 0xFC] ++ body)) s)

/-- `SLOT_WHITE` (45_edid_descriptors.md R207). -/
def execSlotWhite (k : Fin 4) (body : List Byte) (s : State) : Host.Outcome State Fault Refusal :=
  .next (putDesc k (whiteOf ([0x00, 0x00, 0x00, 0xFB] ++ body)) s)

/-- `SLOT_UNUSED_OTHER` (45_edid_descriptors.md R208): the slot's bytes are not reported. -/
def execSlotUnusedOther (k : Fin 4) (_body : List Byte) (s : State) : Host.Outcome State Fault Refusal :=
  .next (putDesc k .unused s)

/-- `SLOT_DTD` (45_edid_descriptors.md R203). -/
def execSlotDtd (k : Fin 4) (body : List Byte) (s : State) : Host.Outcome State Fault Refusal :=
  .next (putDesc k (.dtd (dtdOf body)) s)

end Sys2Proof.Machine
end

