-- ==== Sys2Proof/Machine/Edid.lean ====
section
/-! DEFINITION. The command `EDID` (44_edid_decode.md). -/

namespace Sys2Proof.Machine

/-- The manufacturer word `W`, high byte first (44_edid_decode.md R164). -/
def mfgWord (e : List Byte) : BitVec 16 := be16 (byteAt e 8) (byteAt e 9)

/-- `VIN`, selected by bit 7 of byte 20 (44_edid_decode.md R169). -/
def videoInputOf (b : Byte) : VideoInput :=
  if bit b 7 = true then .digital (bit b 0) (bits b 1 6)
  else .analog (bits b 5 2) (bit b 4) (bit b 3) (bit b 2) (bit b 1) (bit b 0)

/-- `STD[k]` (44_edid_decode.md R174). -/
def stdTimingOf (e : List Byte) (k : Nat) : StdTiming where
  used := !(byteAt e (38 + 2 * k) == 0x01 && byteAt e (39 + 2 * k) == 0x01)
  hcode := byteAt e (38 + 2 * k)
  aspect := bits (byteAt e (39 + 2 * k)) 6 2
  vcode := bits (byteAt e (39 + 2 * k)) 0 6

/-- The EDIDRecord of a 128-byte block (44_edid_decode.md R163 to R175). -/
def recordOf (e : List Byte) : Record where
  mfgId := (mfgWord e).extractLsb' 0 15
  mfgL1 := (mfgWord e).extractLsb' 10 5
  mfgL2 := (mfgWord e).extractLsb' 5 5
  mfgL3 := (mfgWord e).extractLsb' 0 5
  product := le16 (byteAt e 10) (byteAt e 11)
  serial := le32 (byteAt e 12) (byteAt e 13) (byteAt e 14) (byteAt e 15)
  week := byteAt e 16
  year := byteAt e 17
  version := byteAt e 18
  revision := byteAt e 19
  vin := videoInputOf (byteAt e 20)
  hsizeCm := byteAt e 21
  vsizeCm := byteAt e 22
  gamma := byteAt e 23
  pwrStandby := bit (byteAt e 24) 7
  pwrSuspend := bit (byteAt e 24) 6
  pwrActiveoff := bit (byteAt e 24) 5
  dispType := bits (byteAt e 24) 3 2
  srgb := bit (byteAt e 24) 2
  prefTiming := bit (byteAt e 24) 1
  gtf := bit (byteAt e 24) 0
  redX := chroma10 (byteAt e 27) (bits (byteAt e 25) 6 2)
  redY := chroma10 (byteAt e 28) (bits (byteAt e 25) 4 2)
  greenX := chroma10 (byteAt e 29) (bits (byteAt e 25) 2 2)
  greenY := chroma10 (byteAt e 30) (bits (byteAt e 25) 0 2)
  blueX := chroma10 (byteAt e 31) (bits (byteAt e 26) 6 2)
  blueY := chroma10 (byteAt e 32) (bits (byteAt e 26) 4 2)
  whiteX := chroma10 (byteAt e 33) (bits (byteAt e 26) 2 2)
  whiteY := chroma10 (byteAt e 34) (bits (byteAt e 26) 0 2)
  est := be24 (byteAt e 35) (byteAt e 36) (byteAt e 37)
  std := Vector.ofFn fun k : Fin 8 => stdTimingOf e k.val
  desc := Vector.ofFn fun k : Fin 4 => slotDesc (slotOf e k.val)
  extCount := byteAt e 126
  checksum := byteAt e 127

/-- `EDID` on the 128 bytes it has read: the checksum verdict, the header check, the record (44_edid_decode.md R161 to
R163). -/
def decodeEdid (e : List Byte) (s : State) : State :=
  if headerPresent e then acceptEdid (csumVerdict e) (recordOf e) s
  else raiseEdid .header (csumVerdict e) s

/-- `EDID` (44_edid_decode.md R163). `EDLEN` over 128 is refused (10_state.md R26); below 128 no cell is read (R161). -/
def execEdid (s : State) : Host.Outcome State Fault Refusal :=
  if Config.edidLen < s.edlen.toNat then .refused .edlenOverBuffer
  else if s.edlen.toNat < Config.edidLen then .next (raiseEdid .short false s)
  else
    match readRange s .ed 0 Config.edidLen with
    | .error f => .fault f
    | .ok e => .next (decodeEdid e s)

end Sys2Proof.Machine
end

