-- ==== Sys2Proof/Machine/Reply.lean ====
section
/-! DEFINITION. The reply decoder `DECR` (42_ddc_decode.md) and the reply-frame row `FRAME_P` (30_encoding.md R76). -/

namespace Sys2Proof.Machine

/-- The checks of `DECR` on the received bytes, in the order of 42_ddc_decode.md R121, each bound check before the first
read it protects. -/
def replyVerdict (p : Config.Params) (cid : Byte) (r : List Byte) : ReplyVerdict :=
  let n := r.length
  let t := p.typeByte.val
  if n < 3 then .failed .length
  else if byteAt r 1 ≠ lenByte (n - 3) then .failed .length
  else if byteAt r (n - 1) ≠ xorFold p.rxSeed (r.take (n - 1)) then .failed .checksum
  else if n - 3 < 2 then .failed .length
  else if byteAt r 3 ≠ Config.rcOk then .failed .declined
  else if n - 3 < 3 then .failed .length
  else if byteAt r 4 ≠ cid then .failed .echo
  else if n - 3 < 7 + t then .failed .length
  else .valid (be16 (byteAt r (5 + t)) (byteAt r (6 + t))) (be16 (byteAt r (7 + t)) (byteAt r (8 + t)))

/-- `DECR` at a setting of the parameters (42_ddc_decode.md R121). `RXLEN` over `RXCAP` is refused (10_state.md R26). The
cells are read in the order of the pseudocode: none when `RXLEN` < 3, cell 1 alone when check (a) fails, every cell below
`RXLEN` otherwise. -/
def decrAt (p : Config.Setting) (s : State) : Host.Outcome State Fault Refusal :=
  if p.rxcap < s.rxlen.toNat then .refused .rxlenOverCapacity
  else if s.rxlen.toNat < 3 then .next (raiseReply .length s)
  else
    match readCell p.rxcap s.rxbuf 1 with
    | .error f => .fault f
    | .ok len =>
      if len ≠ lenByte (s.rxlen.toNat - 3) then .next (raiseReply .length s)
      else
        match readCells p.rxcap s.rxbuf 0 s.rxlen.toNat with
        | .error f => .fault f
        | .ok r => .next (putReply (replyVerdict p.toParams s.cid r) s)

/-- `DECR` (42_ddc_decode.md R121), at this hardware's setting. -/
def execDecr (s : State) : Host.Outcome State Fault Refusal :=
  decrAt Config.hardware s

/-- `FRAME_P` at a setting of the reply parameters: the block examines the frame as `DECR` does (30_encoding.md R76,
42_ddc_decode.md R121). -/
def framePAt (p : Config.Params) (rsrc : Byte) (count : BitVec 7) (ropc echo : Byte) (typ : Option Byte)
    (mh ml sh sl : Byte) (extra : List Byte) (chk : Byte) (s : State) : Host.Outcome State Fault Refusal :=
  .next (putReply (replyVerdict p s.cid (replyBytes rsrc count ropc echo typ mh ml sh sl extra chk)) s)

/-- `FRAME_P` (30_encoding.md R76), at this hardware's setting. -/
def execFrameP (rsrc : Byte) (count : BitVec 7) (ropc echo : Byte) (typ : Option Byte) (mh ml sh sl : Byte)
    (extra : List Byte) (chk : Byte) (s : State) : Host.Outcome State Fault Refusal :=
  framePAt Config.hw rsrc count ropc echo typ mh ml sh sl extra chk s

end Sys2Proof.Machine
end

