-- ==== Sys2Proof/Machine/Request.lean ====
section
/-! DEFINITION. The encoders `ENCW` and `ENCR` (41_ddc_encode.md) and the request-frame rows `FRAME_W` and `FRAME_R`
(30_encoding.md R74, R75). -/

namespace Sys2Proof.Machine

/-- Format W for a control id and a 16-bit value field (30_encoding.md R74, 41_ddc_encode.md R111). -/
def frameWBytes (cid : Byte) (f : BitVec 16) : List Byte :=
  frameWHead cid (highByte f) (lowByte f) ++ [requestChecksum (frameWHead cid (highByte f) (lowByte f))]

/-- Format R for a control id (30_encoding.md R75, 41_ddc_encode.md R114). -/
def frameRBytes (cid : Byte) : List Byte :=
  frameRHead cid ++ [requestChecksum (frameRHead cid)]

/-- `ENCW` on a `VAL` of any width (41_ddc_encode.md R111). -/
def encwWith {n : Nat} (val : BitVec n) (s : State) : Host.Outcome State Fault Refusal :=
  .next (emitW (frameWBytes s.cid (zext16 val)) s)

/-- `ENCW` (41_ddc_encode.md R111). -/
def execEncw (s : State) : Host.Outcome State Fault Refusal :=
  encwWith s.val s

/-- `ENCR` (41_ddc_encode.md R114). -/
def execEncr (s : State) : Host.Outcome State Fault Refusal :=
  .next (emitR (frameRBytes s.cid) s)

/-- `FRAME_W`: the block emits the frame (30_encoding.md R74). The checksum byte it emits is the one R73 computes, whatever
byte the encoding carried (log entry 12). -/
def execFrameW (cid vh vl _chk : Byte) (s : State) : Host.Outcome State Fault Refusal :=
  .next (emitW (frameWBytes cid (be16 vh vl)) s)

/-- `FRAME_R`: the block emits the frame (30_encoding.md R75). The checksum byte as in execFrameW. -/
def execFrameR (cid _chk : Byte) (s : State) : Host.Outcome State Fault Refusal :=
  .next (emitR (frameRBytes cid) s)

end Sys2Proof.Machine
end

