-- ==== Sys2Proof/Machine/Dispatch.lean ====
section
/-! DEFINITION. exec: one arm per row of spec/opcode_table.json, in the table's order. -/

namespace Sys2Proof.Machine

def exec (i : Instr) (s : State) : Host.Outcome State Fault Refusal :=
  match i with
  | .encw => Sys2Proof.Machine.execEncw s
  | .encr => Sys2Proof.Machine.execEncr s
  | .decr => Sys2Proof.Machine.execDecr s
  | .edid => Sys2Proof.Machine.execEdid s
  | .frameW cid vh vl chk => Sys2Proof.Machine.execFrameW cid vh vl chk s
  | .frameR cid chk => Sys2Proof.Machine.execFrameR cid chk s
  | .frameP rsrc count ropc echo typ mh ml sh sl extra chk => Sys2Proof.Machine.execFrameP rsrc count ropc echo typ mh ml sh sl extra chk s
  | .slotUnusedZero k => Sys2Proof.Machine.execSlotUnusedZero k s
  | .slotUnusedOnes k => Sys2Proof.Machine.execSlotUnusedOnes k s
  | .slotTextSerial k body => Sys2Proof.Machine.execSlotTextSerial k body s
  | .slotTextComment k body => Sys2Proof.Machine.execSlotTextComment k body s
  | .slotRange k body => Sys2Proof.Machine.execSlotRange k body s
  | .slotTextName k body => Sys2Proof.Machine.execSlotTextName k body s
  | .slotWhite k body => Sys2Proof.Machine.execSlotWhite k body s
  | .slotUnusedOther k body => Sys2Proof.Machine.execSlotUnusedOther k body s
  | .slotDtd k body => Sys2Proof.Machine.execSlotDtd k body s

end Sys2Proof.Machine
end

