-- ==== Sys2Proof/Machine/Fetch.lean ====
section
/-! DEFINITION. Where a step takes its encoding from. The block has no program counter and no instruction fetch
(10_state.md R24): the next command is the one in `CMD`. The other ports are the model's own (log entry 8). -/

namespace Sys2Proof.Machine

/-- The bytes a port shows, for a block whose `RXBUF` has cap cells: the command field, the frame in `TXBUF`, the frame in
`RXBUF`, or slot k of `EDBUF`. The bounds are those of 20_memory.md R57 and 10_state.md R26. -/
def portBytesAt (cap : Nat) (s : State) : Host.Outcome (List Byte) Fault Refusal :=
  match s.port with
  | .command => .next [s.cmd.setWidth 8]
  | .request =>
    match readRange s .tx 0 s.txlen.toNat with
    | .error f => .fault f
    | .ok bs => .next bs
  | .reply =>
    if cap < s.rxlen.toNat then .refused .rxlenOverCapacity
    else
      match readCells cap s.rxbuf 0 s.rxlen.toNat with
      | .error f => .fault f
      | .ok bs => .next bs
  | .slot k =>
    if s.edlen.toNat = Config.edidLen then
      match readRange s .ed (slotBase k) 18 with
      | .error f => .fault f
      | .ok bs => .next bs
    else .refused .noSlot

/-- The instruction the next step runs, at a setting of the parameters. -/
def fetchAt (p : Config.Setting) (s : State) : Host.Outcome Instr Fault Refusal :=
  match portBytesAt p.rxcap s with
  | .fault f => .fault f
  | .refused r => .refused r
  | .next bs =>
    match decodeAt p.toParams s.port bs with
    | .ok i => .next i
    | .error e => .refused (.noFrame e)

/-- The bytes a port shows, at this hardware's setting. -/
def portBytes (s : State) : Host.Outcome (List Byte) Fault Refusal :=
  portBytesAt Config.rxcap s

/-- The instruction the next step runs, at this hardware's setting. -/
def fetch (s : State) : Host.Outcome Instr Fault Refusal :=
  fetchAt Config.hardware s

/-- Store an encoding where its port shows it, with the length register that goes with the buffer, and select the port. -/
def storeEncoding (p : Port) (bs : List Byte) (s : State) : State :=
  match p with
  | .command => (s.setCmd ((byteAt bs 0).setWidth 2)).setPort .command
  | .request => (s.setTx (BitVec.ofNat 3 bs.length) (Memory.writeRange s.txbuf 0 bs)).setPort .request
  | .reply => (s.setRx (BitVec.ofNat 8 bs.length) (Memory.writeRange s.rxbuf 0 bs)).setPort .reply
  | .slot k => (s.setEdIn 128 (Memory.writeRange s.edbuf (slotBase k) bs)).setPort (.slot k)

end Sys2Proof.Machine
end

