-- ==== Sys2Proof/Machine/Step.lean ====
section
/-! DEFINITION. One step: the block runs the command the host has issued (10_state.md R20, R21). Nothing is advanced
afterwards (R24). -/

namespace Sys2Proof.Machine

/-- One step of the block. -/
def step (s : State) : Host.Outcome State Fault Refusal :=
  match fetch s with
  | .fault f => .fault f
  | .refused r => .refused r
  | .next i => exec i s

/-- The state with a table row's bits stored where the step takes its next encoding from (log entry 10). -/
def State.withFetchWord (s : State) (nbits w : Nat) : State :=
  storeEncoding (tablePlace nbits w).1 (tablePlace nbits w).2 s

end Sys2Proof.Machine
end

