-- ==== Sys2Proof/Machine/Session.lean ====
section
/-! DEFINITION. The host around the block: its writes of operands and input buffers (10_state.md R25, R28), and the three
sequences of 43_vcp_transactions.md (`set_control` R143, `get_control` R145, `read_edid` R149) as functions that run the
block's commands, with what the Transport Session answers as an input. Outside the block (00_scope.md R6): no field of State
belongs to it and step does not use it; the block's parameters are at this hardware's setting. Delays are points where nothing of the block changes (R141) and do not appear.
Log entry 14. -/

namespace Sys2Proof.Machine

/-- Run g on the next state of an outcome. -/
def andThen {α β : Type} (o : Host.Outcome α Fault Refusal) (g : α → Host.Outcome β Fault Refusal) :
    Host.Outcome β Fault Refusal :=
  match o with
  | .next a => g a
  | .fault f => .fault f
  | .refused r => .refused r

/-- The host copies what it fetched to `RXBUF[0..]` and sets `RXLEN` to its length, at most `RXCAP` bytes
(43_vcp_transactions.md R142, R145). -/
def hostWriteReply (bs : List Byte) (s : State) : State :=
  s.setRx (BitVec.ofNat 8 (bs.take Config.rxcap).length) (Memory.writeRange s.rxbuf 0 (bs.take Config.rxcap))

/-- The host copies the identity block to `EDBUF[0..]` and sets `EDLEN`, at most 128 bytes (43_vcp_transactions.md R149). -/
def hostWriteBlock (bs : List Byte) (s : State) : State :=
  s.setEdIn (BitVec.ofNat 8 (bs.take Config.edidLen).length)
    (Memory.writeRange s.edbuf 0 (bs.take Config.edidLen))

/-- The reference echo `E(c, m, v)` of 95_test_vectors.md section 2.4, the frame of 42_ddc_decode.md R135, less its checksum:
what a device that holds maximum m and value v for control c answers; `typ` is the type byte, present when T = 1. -/
def echoHead (p : Config.Params) (typ c : Byte) (m v : BitVec 16) : List Byte :=
  [0x6E, lenByte (7 + p.typeByte.val), 0x02, 0x00, c] ++ (if p.typeByte = 1 then [typ] else []) ++
    [highByte m, lowByte m, highByte v, lowByte v]

/-- The reference echo with its checksum (42_ddc_decode.md R124, R135). -/
def echoFrame (p : Config.Params) (typ c : Byte) (m v : BitVec 16) : List Byte :=
  echoHead p typ c m v ++ [xorFold p.rxSeed (echoHead p typ c m v)]

/-- A session as its host sees it: the block, the session's lock (R150), the frames handed to the Transport Session in
order, and the attempts of the read in progress (R147). -/
structure Session where
  block : State
  locked : Bool
  sent : List (List Byte)
  attempts : Nat
deriving DecidableEq, Repr

/-- What one fetch of a reply comes to (43_vcp_transactions.md R145). -/
inductive Fetched where
  /-- Bytes came back. -/
  | bytes (bs : List Byte)
  /-- Nothing within `TIMEOUT`. -/
  | timeout
  /-- A transport error of this transaction only. -/
  | transientError
  /-- The session reports it is unusable. -/
  | unusable
deriving DecidableEq, Repr

/-- What `get_control` returns (60_exceptions.md R236). -/
inductive ReadResult where
  /-- `ReadResponse{valid = 1}` with its values. -/
  | response (max cur : BitVec 16)
  /-- `ReadResponse{valid = 0}`, with `RR_FAIL` of the last attempt where it ran `DECR`. -/
  | invalid (why : Option (BitVec 3))
  /-- `Error(TransportUnavailable)`. -/
  | transportUnavailable
deriving DecidableEq, Repr

/-- What `read_edid` returns (43_vcp_transactions.md R149). -/
inductive BlockResult where
  /-- The EDIDRecord with `checksum_ok`. -/
  | parsed (r : Record) (checksumOk : Bool)
  /-- `Error(StructuralParseError)`, with `ED_ERR`. -/
  | structuralParseError (err : BitVec 2)
  /-- `Error(TransportUnavailable)`: every failure of `read_identity_block`, whichever error the transport gives. R149 allows
  this or the transport's own error; that the model reports only this one is its DESIGN CHOICE, log entry 14. -/
  | transportUnavailable
deriving DecidableEq, Repr

/-- Issue a command to the block: the host writes `CMD` (70_reset_and_hazards.md R262) and the block takes one step. That the
command's name in an expansion is this write, and that it selects the command port of the model's own field, is the model's
choice: log entry 14. -/
def Session.issue (cmd : BitVec 2) (h : Session) : Host.Outcome Session Fault Refusal :=
  andThen (step ((h.block.setPort .command).setCmd cmd)) fun t => .next { h with block := t }

/-- Send `TXBUF[0 .. TXLEN-1]` (70_reset_and_hazards.md R268). -/
def Session.send (h : Session) : Host.Outcome Session Fault Refusal :=
  match readRange h.block .tx 0 h.block.txlen.toNat with
  | .ok frame => .next { h with sent := h.sent ++ [frame] }
  | .error f => .fault f

/-- `set_control(session, c, x)` with the session's report of the transaction (43_vcp_transactions.md R143). -/
def setControl (c : Byte) (x : BitVec Config.vw) (sendOk : Bool) (h : Session) :
    Host.Outcome (Session × Bool) Fault Refusal :=
  let h1 := { h with locked := true, block := (h.block.setCid c).setVal x }
  andThen (h1.issue 0) fun h2 =>
    andThen h2.send fun h3 => .next ({ h3 with locked := false }, sendOk)

/-- The bytes a fetch brings back: none on a timeout, an error or an unusable session. -/
def Fetched.received : Fetched → List Byte
  | .bytes bs => bs
  | .timeout => []
  | .transientError => []
  | .unusable => []

/-- One attempt: request, delay, fetch, `RXBUF` and `RXLEN` with what was fetched, and `DECR` where bytes were fetched
(43_vcp_transactions.md R142, R145, R146). A fetch of no bytes leaves `RXLEN` 0 and is a failed attempt without `DECR`. -/
def Session.attempt (f : Fetched) (h : Session) : Host.Outcome (Session × ReadResult) Fault Refusal :=
  let h1 := { h with attempts := h.attempts + 1 }
  andThen (h1.issue 1) fun h2 =>
    andThen h2.send fun h3 =>
      let h4 := { h3 with block := hostWriteReply f.received h3.block }
      match f with
      | .unusable => .next (h4, .transportUnavailable)
      | .timeout => .next (h4, .invalid none)
      | .transientError => .next (h4, .invalid none)
      | .bytes [] => .next (h4, .invalid none)
      | .bytes (_ :: _) =>
        andThen (h4.issue 2) fun h5 =>
          .next (h5, if h5.block.rrValid then .response h5.block.rrMax h5.block.rrCur
                     else .invalid (some h5.block.rrFail))

/-- The retry loop with `left` retries left; once the transport's answers run out every fetch times out
(43_vcp_transactions.md R146, R147). -/
def Session.retryLoop : Nat → List Fetched → Session → Host.Outcome (Session × ReadResult) Fault Refusal
  | 0, fs, h => h.attempt (fs.headD .timeout)
  | left + 1, fs, h =>
    andThen (h.attempt (fs.headD .timeout)) fun hr =>
      match hr.2 with
      | .invalid _ => Session.retryLoop left fs.tail hr.1
      | .response _ _ => .next hr
      | .transportUnavailable => .next hr

/-- `get_control(session, c)` (43_vcp_transactions.md R145). -/
def getControl (maxRetries : Nat) (c : Byte) (fs : List Fetched) (h : Session) :
    Host.Outcome (Session × ReadResult) Fault Refusal :=
  andThen (Session.retryLoop maxRetries fs { h with locked := true, attempts := 0, block := h.block.setCid c })
    fun hr => .next ({ hr.1 with locked := false }, hr.2)

/-- `read_edid(session)` (43_vcp_transactions.md R149); none is a failed `read_identity_block`. There R149 returns
`TransportUnavailable` or the transport's error: that the model reports every such error as `transportUnavailable`, and keeps no
error of the transport's own, is its DESIGN CHOICE, log entry 14. -/
def readEdid (answer : Option (List Byte)) (h : Session) : Host.Outcome (Session × BlockResult) Fault Refusal :=
  match answer with
  | none => .next ({ h with locked := false }, .transportUnavailable)
  | some bs =>
    andThen ({ h with locked := true, block := hostWriteBlock bs h.block }.issue 3) fun h2 =>
      .next ({ h2 with locked := false },
        if h2.block.edOk then .parsed h2.block.record h2.block.edCsumOk
        else .structuralParseError h2.block.edErr)

end Sys2Proof.Machine
end

