-- ==== Sys2Proof/Machine/Setting.lean ====
section
/-! DEFINITION. The block at any setting of its parameters (00_scope.md R7: "a parameter is an argument of the model"). State
holds `VAL` at this hardware's width, so the contents of a `VAL` of VW bits are an argument too, which 10_state.md R27 allows
("A model may take each command's operands as arguments"); the field `val` of State is not read here. At the default setting,
with `VAL` as State holds it, this is exec and step (Laws/Setting.lean). -/

namespace Sys2Proof.Machine

/-- exec at a setting p, with val in the `VAL` of p. Only `ENCW`, `DECR` and `FRAME_P` depend on the parameters
(41_ddc_encode.md R111, 42_ddc_decode.md R120). -/
def execAt (p : Config.Setting) (val : BitVec p.valWidth.bits) (i : Instr) (s : State) :
    Host.Outcome State Fault Refusal :=
  match i with
  | .encw => encwWith val s
  | .encr => execEncr s
  | .decr => decrAt p s
  | .edid => execEdid s
  | .frameW cid vh vl chk => execFrameW cid vh vl chk s
  | .frameR cid chk => execFrameR cid chk s
  | .frameP rsrc count ropc echo typ mh ml sh sl extra chk =>
      framePAt p.toParams rsrc count ropc echo typ mh ml sh sl extra chk s
  | .slotUnusedZero k => execSlotUnusedZero k s
  | .slotUnusedOnes k => execSlotUnusedOnes k s
  | .slotTextSerial k body => execSlotTextSerial k body s
  | .slotTextComment k body => execSlotTextComment k body s
  | .slotRange k body => execSlotRange k body s
  | .slotTextName k body => execSlotTextName k body s
  | .slotWhite k body => execSlotWhite k body s
  | .slotUnusedOther k body => execSlotUnusedOther k body s
  | .slotDtd k body => execSlotDtd k body s

/-- One step of the block at a setting p, with val in the `VAL` of p. -/
def stepAt (p : Config.Setting) (val : BitVec p.valWidth.bits) (s : State) : Host.Outcome State Fault Refusal :=
  match fetchAt p s with
  | .fault f => .fault f
  | .refused r => .refused r
  | .next i => execAt p val i s

end Sys2Proof.Machine
end

