-- ==== Sys2Proof/Safety.lean ====
section
/-! DEFINITION. What counts as a safe run, in the terms claims use: what the host must have written before a command
(70_reset_and_hazards.md R262), and the invariant every step keeps. -/

namespace Sys2Proof.Machine

/-- Every cell of a buffer from i on, n of them, holds a value. -/
def State.holds (s : State) (b : Buffer) (i n : Nat) : Prop :=
  ∀ j, i ≤ j → j < i + n → (Memory.read (s.buf b) j).isSome = true

/-- The host has done what R262 asks before `DECR`: `RXLEN <= RXCAP` and `RXBUF[0 .. RXLEN-1]` written. -/
def State.replyReady (s : State) : Prop :=
  s.rxlen.toNat ≤ Config.rxcap ∧ s.holds .rx 0 s.rxlen.toNat

/-- The host has done what R262 asks before `EDID`: `EDLEN <= 128` and `EDBUF[0 .. EDLEN-1]` written. -/
def State.blockReady (s : State) : Prop :=
  s.edlen.toNat ≤ Config.edidLen ∧ s.holds .ed 0 s.edlen.toNat

/-- The host has done what R262 asks before the command. -/
def State.ready (s : State) : Instr → Prop
  | .decr => s.replyReady
  | .edid => s.blockReady
  | _ => True

/-- The received reply is the bytes r, for a block whose `RXBUF` has cap cells: `RXLEN` is their number, within cap, and
`RXBUF` holds them from index 0. -/
def State.replyIsIn (s : State) (cap : Nat) (r : List Byte) : Prop :=
  s.rxlen.toNat = r.length ∧ r.length ≤ cap ∧ ∀ i, i < r.length → Memory.read s.rxbuf i = some (byteAt r i)

/-- The received reply is the bytes r, at this hardware's `RXCAP`. -/
def State.replyIs (s : State) (r : List Byte) : Prop := s.replyIsIn Config.rxcap r

/-- The identity block is the 128 bytes e: `EDLEN` is 128 and `EDBUF` holds them. -/
def State.blockIs (s : State) (e : List Byte) : Prop :=
  s.edlen.toNat = 128 ∧ e.length = 128 ∧ ∀ i, i < 128 → Memory.read s.edbuf i = some (byteAt e i)

/-- From s to t nothing changed but result group TX (and the model's counter of free values). -/
def State.onlyTx (s t : State) : Prop :=
  t = { s with txlen := t.txlen, txbuf := t.txbuf, fresh := t.fresh }

/-- From s to t nothing changed but result group RR (and the model's counter of free values). -/
def State.onlyRr (s t : State) : Prop :=
  t = { s with rrValid := t.rrValid, rrFail := t.rrFail, rrMax := t.rrMax, rrCur := t.rrCur, fresh := t.fresh }

/-- From s to t nothing changed but result group ED (and the model's counter of free values). -/
def State.onlyEd (s t : State) : Prop :=
  t = { s with edOk := t.edOk, edErr := t.edErr, edCsumOk := t.edCsumOk, record := t.record, fresh := t.fresh }

/-- From s to t nothing changed but the descriptor register `DESC[k]`. -/
def State.onlyDesc (s t : State) (k : Fin 4) : Prop :=
  t = { s with record := { s.record with desc := t.record.desc } } ∧
    ∀ j : Fin 4, j ≠ k → t.record.desc[j] = s.record.desc[j]

/-- A fetch of a reply to control c that ends in a failed attempt with the session still usable: nothing came back, or what
came back, cut to `RXCAP` bytes, fails a check of `DECR` (43_vcp_transactions.md R145, R147). -/
def Fetched.fails (c : Byte) : Fetched → Prop
  | .timeout => True
  | .transientError => True
  | .unusable => False
  | .bytes bs => ∃ f, replyVerdict Config.hw c (bs.take Config.rxcap) = .failed f

/-- A fetch of a reply to control c that every check of `DECR` passes, with its two values. -/
def Fetched.carries (c : Byte) (m v : BitVec 16) : Fetched → Prop
  | .bytes bs => replyVerdict Config.hw c (bs.take Config.rxcap) = .valid m v
  | .timeout => False
  | .transientError => False
  | .unusable => False

/-- `RR_FAIL` of a failed attempt, where it ran `DECR`. -/
def Fetched.cause (c : Byte) : Fetched → Option (BitVec 3)
  | .bytes [] => none
  | .bytes (b :: bs) => some (replyVerdict Config.hw c ((b :: bs).take Config.rxcap)).code
  | .timeout => none
  | .transientError => none
  | .unusable => none

/-- Each buffer is in its canonical form, inside its index range (20_memory.md R50). -/
def State.buffersWf (s : State) : Bool :=
  Memory.wf Config.txCells s.txbuf && Memory.wf Config.rxcap s.rxbuf && Memory.wf Config.edidLen s.edbuf

/-- The status registers hold codes the spec has (60_exceptions.md R231, R232; 10_state.md R30, R31, R35): `RR_FAIL` is 0
to 4, and 0 when `RR_VALID` is 1; `ED_ERR` is 0 to 2, and 0 when `ED_OK` is 1; `TXLEN` is 5 or 7 (0 before the first
encoder, log entry 2). -/
def State.statusLegal (s : State) : Bool :=
  decide (s.rrFail.toNat ≤ 4) && (!s.rrValid || s.rrFail == 0) && decide (s.edErr.toNat ≤ 2) &&
    (!s.edOk || s.edErr == 0) && (s.txlen == 0 || s.txlen == 5 || s.txlen == 7)

/-- A descriptor keeps its variant's bounds: `TLEN` is 0 to 13 (10_state.md R39), `PIXCLK` is never 0
(45_edid_descriptors.md R203). -/
def Desc.coherent : Desc → Bool
  | .dtd t => t.pixclk != 0
  | .text _ _ tlen => decide (tlen.toNat ≤ 13)
  | .range _ => true
  | .white _ _ _ => true
  | .unused => true

/-- The record's registers agree with each other: the letters are the fields of `MFG_ID` (44_edid_decode.md R164), `USED` is 0
exactly for the pair 01 01 (R174), every descriptor keeps its bounds. -/
def Record.coherent (r : Record) : Bool :=
  (r.mfgL1 == r.mfgId.extractLsb' 10 5) && (r.mfgL2 == r.mfgId.extractLsb' 5 5) &&
    (r.mfgL3 == r.mfgId.extractLsb' 0 5) &&
    (r.std.toList.all fun t => t.used == !(t.hcode == 0x01 && t.aspect == 0 && t.vcode == 1)) &&
    (r.desc.toList.all Desc.coherent)

/-- The invariant of the machine. -/
def State.inv (s : State) : Bool :=
  s.buffersWf && s.statusLegal && (!s.edOk || s.record.coherent)

end Sys2Proof.Machine
end

