-- ==== Sys2Proof/Certificates/Slice0/Obligations.lean ====
section
/-! DEFINITION. The statements for the provers. -/

open Sys2Proof
open Sys2Proof.Machine

/-! ### Encoding -/

/-- Decoding the encoding of any well-formed instruction gives it back, at every value of every operand and at every
setting of the reply parameters. In the spec this rests on its own choices D2, D5, D6, D8, D9, D24
(92_eei_decisions.md), a layout from general knowledge and an inference it marks derived. -/
def Obligations.DecodeOfEncodeIsIdentity : Prop :=
  (∀ i : Instr, i.wellFormed = true → decode (encode i).1 (encode i).2 = .ok i) ∧
  ∀ (p : Config.Params) (i : Instr), i.wellFormedAt p = true → decodeAt p (encode i).1 (encode i).2 = .ok i

/-- The other direction: whatever bytes a port decodes, at any setting of the reply parameters, the instruction encodes
to exactly those bytes on that port, so no bit of an encoding is dropped. In the spec this rests on its own choices D2,
D5, D6, D8, D9, D24 (92_eei_decisions.md), a layout from general knowledge and an inference it marks derived. -/
def Obligations.EncodeOfDecodeIsIdentity : Prop :=
  (∀ (port : Port) (bs : List Byte) (i : Instr), decode port bs = .ok i → encode i = (port, bs)) ∧
  ∀ (p : Config.Params) (port : Port) (bs : List Byte) (i : Instr), decodeAt p port bs = .ok i → encode i = (port, bs)

/-- Every 18-byte slot content is decoded, to a well-formed row: the slot rows cover all contents (30_encoding.md R90,
R94). In the spec this rests on its own choices D24 (92_eei_decisions.md), a layout from general knowledge and an
inference it marks derived. -/
def Obligations.EverySlotContentDecodes : Prop :=
  ∀ (k : Fin 4) (bs : List Byte), bs.length = 18 → ∃ i, decode (.slot k) bs = .ok i ∧ i.wellFormed = true

/-- Words written out from the spec's encodings decode to their rows. In the spec this rests on its own choices D2, D5,
D6, D8, D9, D24 (92_eei_decisions.md), a layout from general knowledge and an inference it marks derived. -/
def Obligations.SampleWordsDecode : Prop :=
  decode .command [3] = .ok .edid ∧
  decode .request [0x51, 0x84, 0x03, 0x10, 0x00, 0x32, 0x9A] = .ok (.frameW 0x10 0x00 0x32 0x9A) ∧
  decode .request [0x51, 0x82, 0x01, 0x10, 0xAC] = .ok (.frameR 0x10 0xAC) ∧
  decode .reply [0x6E, 0x87, 0x02, 0x00, 0x10, 0x00, 0x64, 0x00, 0x32, 0xC3] =
    .ok (.frameP 0x6E 7 0x02 0x10 none 0x00 0x64 0x00 0x32 [] 0xC3) ∧
  decode (.slot 1) ([0x00, 0x00, 0x00, 0xFB] ++ List.replicate 14 0x07) = .ok (.slotWhite 1 (List.replicate 14 0x07))

/-! ### Stepping -/

/-- When the bytes at the selected port decode to a well-formed i, the step is exec of i, and nothing is added around
it; the same at every setting of the parameters, and the machine is the block at this hardware's setting (log entry 5).
The ports are the model's choice, log entry 8. In the spec this rests on its own choices D16 (92_eei_decisions.md) and
an inference it marks derived. -/
def Obligations.StepRunsTheDecodedRow : Prop :=
  (∀ (s : State) (bs : List Byte) (i : Instr), portBytes s = .next bs → decode s.port bs = .ok i →
    i.wellFormed = true → step s = exec i s) ∧
  (∀ (p : Config.Setting) (v : BitVec p.valWidth.bits) (s : State) (bs : List Byte) (i : Instr),
    portBytesAt p.rxcap s = .next bs → decodeAt p.toParams s.port bs = .ok i → stepAt p v s = execAt p v i s) ∧
  ∀ s : State, step s = stepAt Config.hardware s.val s

/-- On the command port the step is the command that `CMD` numbers (30_encoding.md R70). In the spec this rests on its
own choices D2 (92_eei_decisions.md). -/
def Obligations.CommandPortRunsCmd : Prop :=
  ∀ s : State, s.port = .command →
    (s.cmd = 0 → step s = exec .encw s) ∧ (s.cmd = 1 → step s = exec .encr s) ∧
    (s.cmd = 2 → step s = exec .decr s) ∧ (s.cmd = 3 → step s = exec .edid s)

/-- A command whose operands and input buffer the host has written always completes (10_state.md R21,
70_reset_and_hazards.md R262). In the spec this rests on its own choices D1 (92_eei_decisions.md) and an inference it
marks derived. -/
def Obligations.ReadyCommandsComplete : Prop :=
  ∀ (s : State) (i : Instr), s.port = .command → decode .command [s.cmd.setWidth 8] = .ok i → s.ready i →
    ∃ t, step s = .next t

/-- `RXLEN > RXCAP` and `EDLEN > 128` are refused, and a command byte outside the four values is no command (10_state.md
R26). In the spec this rests on its own choices D33 (92_eei_decisions.md). -/
def Obligations.OperandsOutOfRangeAreRefused : Prop :=
  ∀ s : State, (Config.rxcap < s.rxlen.toNat → exec .decr s = .refused .rxlenOverCapacity) ∧
    (128 < s.edlen.toNat → exec .edid s = .refused .edlenOverBuffer) ∧
    ∀ b : Byte, 3 < b.toNat → decode .command [b] = .error .notACommand

/-- No instruction, in any state, reads an index outside a buffer or writes one: no read stops as outside, no cell of
`TXBUF` past its seven is written, and the input buffers are not written at all (20_memory.md R57, R58, R50). In the
spec this rests on an inference it marks derived. -/
def Obligations.NoAccessOutsideABuffer : Prop :=
  ∀ (i : Instr) (s : State), exec i s ≠ .fault .noSuchCell ∧
    ∀ t, exec i s = .next t → (∀ a, 7 ≤ a → Memory.read t.txbuf a = Memory.read s.txbuf a) ∧
      t.rxbuf = s.rxbuf ∧ t.edbuf = s.edbuf

/-- A fault is only ever the read, by `DECR` or `EDID`, of a cell that nothing has written. The fault itself is the
model's reading of 93_implementation_defined.md U5, log entry 3. In the spec this rests on its own choices D15
(92_eei_decisions.md). -/
def Obligations.FaultsOnlyOnUnwrittenCells : Prop :=
  ∀ (i : Instr) (s : State) (f : Fault), exec i s = .fault f → f = .unwrittenCell ∧
    ((i = .decr ∧ ∃ j, j < s.rxlen.toNat ∧ Memory.read s.rxbuf j = none) ∨
     (i = .edid ∧ ∃ j, j < 128 ∧ Memory.read s.edbuf j = none))

/-! ### The checksum units -/

/-- The checksum law and its converse, and the property it gives every frame the encoders build (40_checksum.md
R101). -/
def Obligations.XorChecksumLaw : Prop :=
  (∀ (seed c : Byte) (l : List Byte), c = xorFold seed l ↔ xorFold seed (l ++ [c]) = 0x00) ∧
  ∀ s : State, (∃ t f, exec .encw s = .next t ∧ readRange t .tx 0 t.txlen.toNat = .ok f ∧ xorFold 0x6E f = 0x00) ∧
    ∃ t f, exec .encr s = .next t ∧ readRange t .tx 0 t.txlen.toNat = .ok f ∧ xorFold 0x6E f = 0x00

/-- What the XOR checksum detects: one changed byte changes the fold, two bytes changed by one difference do not, and
the order of the bytes does not matter (40_checksum.md R102). In the spec this rests on an inference it marks
derived. -/
def Obligations.XorChecksumDetection : Prop :=
  ∀ (seed : Byte) (l : List Byte),
    (∀ (i : Nat) (b : Byte), i < l.length → b ≠ byteAt l i → xorFold seed (l.set i b) ≠ xorFold seed l) ∧
    (∀ (i j : Nat) (d : Byte), i < l.length → j < l.length → i ≠ j →
      xorFold seed ((l.set i (byteAt l i ^^^ d)).set j (byteAt l j ^^^ d)) = xorFold seed l) ∧
    ∀ l' : List Byte, l.Perm l' → xorFold seed l' = xorFold seed l

/-- The byte sum is the sum in the natural numbers modulo 256, whether the carry is dropped at each byte or once at the
end, with the corner cases of the rule (40_checksum.md R103). -/
def Obligations.ByteSumIsModulo256 : Prop :=
  (∀ l : List Byte, (sum8 l).toNat = (l.map BitVec.toNat).sum % 256) ∧
  (∀ (l : List Byte) (b : Byte), (sum8 (l ++ [b])).toNat = ((sum8 l).toNat + b.toNat) % 256) ∧
  sum8 [] = 0x00 ∧ sum8 (List.replicate 128 0x00) = 0x00 ∧ sum8 (List.replicate 128 0xFF) = 0x80 ∧
  sum8 [0x00, 0xFF, 0xFF, 0xFF, 0xFF, 0xFF, 0xFF, 0x00] = 0xFA

/-- Of all last bytes exactly `(256 - sum8(p)) mod 256` makes a block valid (40_checksum.md R104). -/
def Obligations.OneLastByteMakesABlockValid : Prop :=
  ∀ (p : List Byte) (c : Byte), p.length = 127 →
    (sum8 (p ++ [c]) = 0x00 ↔ c.toNat = (256 - (sum8 p).toNat) % 256)

/-! ### The encoders -/

/-- `ENCW`: the seven cells, `TXLEN`, and nothing else (41_ddc_encode.md R111). In the spec this rests on its own
choices D4, D11 (92_eei_decisions.md). -/
def Obligations.EncwBuildsTheWriteFrame : Prop :=
  ∀ s : State, ∃ t, exec .encw s = .next t ∧ t.txlen = 7 ∧
    Memory.read t.txbuf 0 = some 0x51 ∧ Memory.read t.txbuf 1 = some 0x84 ∧ Memory.read t.txbuf 2 = some 0x03 ∧
    Memory.read t.txbuf 3 = some s.cid ∧
    Memory.read t.txbuf 4 = some ((zext16 s.val).extractLsb' 8 8) ∧
    Memory.read t.txbuf 5 = some ((zext16 s.val).extractLsb' 0 8) ∧
    Memory.read t.txbuf 6 = some (xorFold 0x6E [0x51, 0x84, 0x03, s.cid, (zext16 s.val).extractLsb' 8 8,
      (zext16 s.val).extractLsb' 0 8]) ∧
    xorFold 0x6E [0x51, 0x84, 0x03, s.cid, (zext16 s.val).extractLsb' 8 8, (zext16 s.val).extractLsb' 0 8] =
      0xB8 ^^^ s.cid ^^^ (zext16 s.val).extractLsb' 8 8 ^^^ (zext16 s.val).extractLsb' 0 8 ∧
    (∀ a, 7 ≤ a → Memory.read t.txbuf a = Memory.read s.txbuf a) ∧ s.onlyTx t ∧ t.fresh = s.fresh

/-- `ENCR`: the five cells and `TXLEN` from `CID` alone, cells 5 and 6 left unconstrained, and nothing else
(41_ddc_encode.md R114). -/
def Obligations.EncrBuildsTheReadFrame : Prop :=
  ∀ s : State, ∃ t, exec .encr s = .next t ∧ t.txlen = 5 ∧
    Memory.read t.txbuf 0 = some 0x51 ∧ Memory.read t.txbuf 1 = some 0x82 ∧ Memory.read t.txbuf 2 = some 0x01 ∧
    Memory.read t.txbuf 3 = some s.cid ∧
    Memory.read t.txbuf 4 = some (xorFold 0x6E [0x51, 0x82, 0x01, s.cid]) ∧
    xorFold 0x6E [0x51, 0x82, 0x01, s.cid] = 0xBC ^^^ s.cid ∧
    (∀ a, 7 ≤ a → Memory.read t.txbuf a = Memory.read s.txbuf a) ∧ s.onlyTx t

/-- The value field of format W for either width of `VAL`, and the frame `ENCW` builds at every setting of the
parameters (30_encoding.md R78, 00_scope.md R7). In the spec this rests on its own choices D2, D3, D4, D6, D7, D8, D11,
D13 (92_eei_decisions.md). -/
def Obligations.ValueFieldIsZeroExtended : Prop :=
  (∀ cid : Byte,
    (∀ v : BitVec 8, byteAt (frameWBytes cid (zext16 v)) 4 = 0x00 ∧ byteAt (frameWBytes cid (zext16 v)) 5 = v) ∧
    ∀ v : BitVec 16, byteAt (frameWBytes cid (zext16 v)) 4 = v.extractLsb' 8 8 ∧
      byteAt (frameWBytes cid (zext16 v)) 5 = v.extractLsb' 0 8) ∧
  ∀ (p : Config.Setting) (v : BitVec p.valWidth.bits) (s : State), ∃ t, execAt p v .encw s = .next t ∧ t.txlen = 7 ∧
    readRange t .tx 0 7 = .ok (frameWBytes s.cid (zext16 v)) ∧ s.onlyTx t

/-- Request frames tell their operands apart and give them back (41_ddc_encode.md R116). In the spec this rests on an
inference it marks derived. -/
def Obligations.RequestFramesAreInjective : Prop :=
  (∀ (c c' : Byte) (f f' : BitVec 16), frameWBytes c f = frameWBytes c' f' ↔ c = c' ∧ f = f') ∧
  (∀ c c' : Byte, frameRBytes c = frameRBytes c' ↔ c = c') ∧
  (∀ (c c' : Byte) (f : BitVec 16), (frameWBytes c f).length ≠ (frameRBytes c').length ∧
    byteAt (frameWBytes c f) 1 ≠ byteAt (frameRBytes c') 1 ∧ byteAt (frameWBytes c f) 2 ≠ byteAt (frameRBytes c') 2) ∧
  (∀ (c : Byte) (f : BitVec 16), byteAt (frameWBytes c f) 3 = c ∧ byteAt (frameRBytes c) 3 = c ∧
    be16 (byteAt (frameWBytes c f) 4) (byteAt (frameWBytes c f) 5) = f) ∧
  ∀ s : State, (∃ t, exec .encw s = .next t ∧ readRange t .tx 0 t.txlen.toNat = .ok (frameWBytes s.cid (zext16 s.val))) ∧
    ∃ t, exec .encr s = .next t ∧ readRange t .tx 0 t.txlen.toNat = .ok (frameRBytes s.cid)

/-- The request-frame rows put their frame in group TX, with the checksum of 30_encoding.md R73, and change nothing
else. That a frame row runs as a step of its own is the model's choice, log entries 8 and 12. In the spec this rests on
an inference it marks derived. -/
def Obligations.RequestRowsEmitTheirFrame : Prop :=
  (∀ (cid vh vl chk : Byte) (s : State), ∃ t, exec (.frameW cid vh vl chk) s = .next t ∧ t.txlen = 7 ∧
    readRange t .tx 0 7 = .ok [0x51, 0x84, 0x03, cid, vh, vl, 0x6E ^^^ 0x51 ^^^ 0x84 ^^^ 0x03 ^^^ cid ^^^ vh ^^^ vl] ∧
    (∀ a, 7 ≤ a → Memory.read t.txbuf a = Memory.read s.txbuf a) ∧ s.onlyTx t) ∧
  ∀ (cid chk : Byte) (s : State), ∃ t, exec (.frameR cid chk) s = .next t ∧ t.txlen = 5 ∧
    readRange t .tx 0 5 = .ok [0x51, 0x82, 0x01, cid, 0x6E ^^^ 0x51 ^^^ 0x82 ^^^ 0x01 ^^^ cid] ∧
    (∀ a, 7 ≤ a → Memory.read t.txbuf a = Memory.read s.txbuf a) ∧ s.onlyTx t

/-- What an encoder leaves in `TXBUF`, shown on the request port, is a well-formed row, and running that row gives the
same frame again; after `ENCR` the cells 5 and 6 hold a value, of which nothing is said. The request port is the model's
choice, log entry 8, and so is that the two cells hold a value, log entry 4. In the spec this rests on its own choices
D4, D11 (92_eei_decisions.md) and an inference it marks derived. -/
def Obligations.EncodedFrameIsItsRow : Prop :=
  ∀ s : State, (∃ t bs i, exec .encw s = .next t ∧ readRange t .tx 0 t.txlen.toNat = .ok bs ∧
      decode .request bs = .ok i ∧ i.wellFormed = true ∧
      ∃ u, exec i t = .next u ∧ readRange u .tx 0 u.txlen.toNat = .ok bs) ∧
    ∃ t bs i, exec .encr s = .next t ∧ readRange t .tx 0 t.txlen.toNat = .ok bs ∧
      (Memory.read t.txbuf 5).isSome = true ∧ (Memory.read t.txbuf 6).isSome = true ∧
      decode .request bs = .ok i ∧ i.wellFormed = true ∧
      ∃ u, exec i t = .next u ∧ readRange u .tx 0 u.txlen.toNat = .ok bs

/-! ### The reply decoder -/

/-- `DECR` on a received reply of any length: it completes, with group RR as the checks of R121 decide, the values where
they all pass, and nothing else changed; the same at every setting of the parameters (42_ddc_decode.md R121, 00_scope.md
R7). In the spec this rests on its own choices D2, D3, D4, D5, D6, D7, D8, D10, D11, D13 (92_eei_decisions.md). -/
def Obligations.DecrWritesTheVerdict : Prop :=
  (∀ (s : State) (r : List Byte), s.replyIs r → ∃ t, exec .decr s = .next t ∧
    t.rrValid = (replyVerdict Config.hw s.cid r).isValid ∧ t.rrFail = (replyVerdict Config.hw s.cid r).code ∧
    (∀ m c, replyVerdict Config.hw s.cid r = .valid m c → t.rrMax = m ∧ t.rrCur = c) ∧ s.onlyRr t) ∧
  ∀ (p : Config.Setting) (v : BitVec p.valWidth.bits) (s : State) (r : List Byte), s.replyIsIn p.rxcap r →
    ∃ t, execAt p v .decr s = .next t ∧
      t.rrValid = (replyVerdict p.toParams s.cid r).isValid ∧ t.rrFail = (replyVerdict p.toParams s.cid r).code ∧
      (∀ m c, replyVerdict p.toParams s.cid r = .valid m c → t.rrMax = m ∧ t.rrCur = c) ∧ s.onlyRr t

/-- Under every setting of the parameters, the verdict is valid exactly when every check passes, and then the values are
the two big-endian fields (42_ddc_decode.md R128, R129, R134). In the spec this rests on its own choices D10
(92_eei_decisions.md), a layout from general knowledge and an inference it marks derived. -/
def Obligations.ReplyValidExactlyWhenChecksPass : Prop :=
  ∀ (p : Config.Params) (cid : Byte) (r : List Byte) (m c : BitVec 16), r.length ≤ 130 →
    (replyVerdict p cid r = .valid m c ↔
      10 + p.typeByte.val ≤ r.length ∧ (byteAt r 1).toNat = 128 + (r.length - 3) ∧
      byteAt r (r.length - 1) = xorFold p.rxSeed r.dropLast ∧ byteAt r 3 = 0x00 ∧ byteAt r 4 = cid ∧
      m.toNat = 256 * (byteAt r (5 + p.typeByte.val)).toNat + (byteAt r (6 + p.typeByte.val)).toNat ∧
      c.toNat = 256 * (byteAt r (7 + p.typeByte.val)).toNat + (byteAt r (8 + p.typeByte.val)).toNat)

/-- Extraction: when `RR_VALID` is 1 the two results are the big-endian fields at payload offsets 3 to 6 (4 to 7 when T
= 1), neither clamped nor compared with the other (42_ddc_decode.md R128). -/
def Obligations.ExtractionIsBigEndian : Prop :=
  (∀ (s t : State) (r : List Byte), s.replyIs r → exec .decr s = .next t → t.rrValid = true →
    t.rrMax.toNat = 256 * (byteAt r 5).toNat + (byteAt r 6).toNat ∧
    t.rrCur.toNat = 256 * (byteAt r 7).toNat + (byteAt r 8).toNat) ∧
  (∀ (seed cid : Byte) (r : List Byte) (m c : BitVec 16), replyVerdict ⟨seed, 1⟩ cid r = .valid m c →
    m.toNat = 256 * (byteAt r 6).toNat + (byteAt r 7).toNat ∧
    c.toNat = 256 * (byteAt r 8).toNat + (byteAt r 9).toNat) ∧
  ∀ m c : BitVec 16, ∃ (s t : State), exec .decr s = .next t ∧ t.rrValid = true ∧ t.rrMax = m ∧ t.rrCur = c

/-- Which cause a failed reply reports: the first in the order of R121 (60_exceptions.md R231, R235). In the spec this
rests on its own choices D5, D6, D7, D8, D10, D23 (92_eei_decisions.md). -/
def Obligations.ReplyReportsTheFirstCause : Prop :=
  ∀ (p : Config.Params) (cid : Byte) (r : List Byte), r.length ≤ 130 →
    let lenOk := 3 ≤ r.length ∧ (byteAt r 1).toNat = 128 + (r.length - 3)
    let sumOk := byteAt r (r.length - 1) = xorFold p.rxSeed r.dropLast
    (replyVerdict p cid r = .failed .checksum ↔ lenOk ∧ ¬ sumOk) ∧
    (replyVerdict p cid r = .failed .declined ↔ lenOk ∧ sumOk ∧ 5 ≤ r.length ∧ byteAt r 3 ≠ 0x00) ∧
    (replyVerdict p cid r = .failed .echo ↔
      lenOk ∧ sumOk ∧ 6 ≤ r.length ∧ byteAt r 3 = 0x00 ∧ byteAt r 4 ≠ cid) ∧
    (replyVerdict p cid r = .failed .length ↔
      ¬ lenOk ∨ (sumOk ∧ r.length < 5) ∨ (sumOk ∧ byteAt r 3 = 0x00 ∧ r.length < 6) ∨
      (sumOk ∧ byteAt r 3 = 0x00 ∧ byteAt r 4 = cid ∧ r.length < 10 + p.typeByte.val))

/-- Any failure sets `RR_VALID` to 0 and `RR_FAIL` to the code of its cause, and changes nothing else but the two value
registers, of which nothing is said (42_ddc_decode.md R129). In the spec this rests on its own choices D10
(92_eei_decisions.md). -/
def Obligations.FailedReplyWritesItsCode : Prop :=
  ∀ (s : State) (r : List Byte) (f : ReplyFailure), s.replyIs r → replyVerdict Config.hw s.cid r = .failed f →
    ∃ t, exec .decr s = .next t ∧ t.rrValid = false ∧ s.onlyRr t ∧
      t.rrFail = (match f with | .length => 1 | .checksum => 2 | .declined => 3 | .echo => 4)

/-- A reply shorter than its length byte declares is not valid, whatever else the buffer holds (42_ddc_decode.md R123).
In the spec this rests on its own choices D5 (92_eei_decisions.md). -/
def Obligations.TruncatedReplyIsInvalid : Prop :=
  ∀ (s : State) (b : Byte), s.rxlen.toNat ≤ Config.rxcap → Memory.read s.rxbuf 1 = some b →
    s.rxlen.toNat < (bits b 0 7).toNat + 3 →
    ∃ t, exec .decr s = .next t ∧ t.rrValid = false ∧ t.rrFail = 1 ∧ s.onlyRr t

/-- Nothing received: `Length`, without reading a cell (42_ddc_decode.md R122, R130). In the spec this rests on an
inference it marks derived. -/
def Obligations.ShortReplyReadsNothing : Prop :=
  ∀ s : State, s.rxlen.toNat ≤ 2 → ∃ t, exec .decr s = .next t ∧ t.rrValid = false ∧ t.rrFail = 1 ∧ s.onlyRr t

/-- The round trip: for every setting of the parameters the reference echo of any control, maximum and value decodes to
them; in the machine, whatever its state before, once the host has copied the echo in (42_ddc_decode.md R135). In the
spec this rests on an inference it marks derived. -/
def Obligations.EchoRoundTrips : Prop :=
  (∀ (p : Config.Params) (typ c : Byte) (m v : BitVec 16),
    replyVerdict p c (echoFrame p typ c m v) = .valid m v) ∧
  (∀ (s : State) (typ : Byte) (m v : BitVec 16),
    ∃ t, exec .decr (hostWriteReply (echoFrame Config.hw typ s.cid m v) s) = .next t ∧
      t.rrValid = true ∧ t.rrFail = 0 ∧ t.rrMax = m ∧ t.rrCur = v) ∧
  ∀ (s : State) (typ : Byte) (m : BitVec 16), ∃ w t, exec .encw s = .next w ∧
    exec .decr (hostWriteReply (echoFrame Config.hw typ w.cid m (zext16 w.val)) w) = .next t ∧
      t.rrValid = true ∧ t.rrCur = zext16 s.val

/-- A reply that is valid under one checksum seed is reported `Checksum` under every other (70_reset_and_hazards.md
R280). In the spec this rests on its own choices D6, D7 (92_eei_decisions.md) and an inference it marks derived. -/
def Obligations.WrongSeedIsAlwaysDetected : Prop :=
  ∀ (p q : Config.Params) (cid : Byte) (r : List Byte) (m c : BitVec 16), q.rxSeed ≠ p.rxSeed →
    replyVerdict p cid r = .valid m c → replyVerdict q cid r = .failed .checksum

/-- A reply with a type byte decoded under T = 0 is accepted with the values one byte early; a reply without one decoded
under T = 1 is `Length` (70_reset_and_hazards.md R280). In the spec this rests on its own choices D6, D7
(92_eei_decisions.md) and an inference it marks derived. -/
def Obligations.TypeByteMismatch : Prop :=
  ∀ (seed typ c : Byte) (m v : BitVec 16),
    replyVerdict ⟨seed, 0⟩ c (echoFrame ⟨seed, 1⟩ typ c m v) =
      .valid (typ ++ highByte m) (lowByte m ++ highByte v) ∧
    replyVerdict ⟨seed, 1⟩ c (echoFrame ⟨seed, 0⟩ typ c m v) = .failed .length

/-- The reply-frame row on a well-formed frame: valid with its four value bytes when the echo is `CID`, `Echo`
otherwise. That a frame row runs as a step of its own is the model's choice, log entry 8. In the spec this rests on its
own choices D5, D6, D7, D8, D9, D10 (92_eei_decisions.md) and a layout from general knowledge. -/
def Obligations.ReplyRowIsExamined : Prop :=
  ∀ (rsrc : Byte) (count : BitVec 7) (ropc echo : Byte) (typ : Option Byte) (mh ml sh sl : Byte) (extra : List Byte)
    (chk : Byte) (s : State), Instr.wellFormed (.frameP rsrc count ropc echo typ mh ml sh sl extra chk) = true →
    ∃ t, exec (.frameP rsrc count ropc echo typ mh ml sh sl extra chk) s = .next t ∧ s.onlyRr t ∧
      (echo = s.cid → t.rrValid = true ∧ t.rrFail = 0 ∧ t.rrMax = mh ++ ml ∧ t.rrCur = sh ++ sl) ∧
      (echo ≠ s.cid → t.rrValid = false ∧ t.rrFail = 4)

/-- `DECR` on a buffer that holds a format P frame does what the row does (30_encoding.md R94: format P is what `DECR`
accepts). That the frame row runs as a step of its own is the model's choice, log entry 8. In the spec this rests on an
inference it marks derived. -/
def Obligations.DecrAgreesWithTheReplyRow : Prop :=
  ∀ (s : State) (r : List Byte) (i : Instr), s.replyIs r → decode .reply r = .ok i → exec .decr s = exec i s

/-! ### The EDID command -/

/-- Fewer than 128 bytes: `Short`, whatever `EDBUF` holds or does not hold (44_edid_decode.md R161). In the spec this
rests on its own choices D23 (92_eei_decisions.md). -/
def Obligations.ShortBlockIsStructuralError : Prop :=
  ∀ s : State, s.edlen.toNat < 128 →
    ∃ t, exec .edid s = .next t ∧ t.edOk = false ∧ t.edErr = 1 ∧ t.edCsumOk = false ∧ s.onlyEd t

/-- 128 bytes whose first eight are not the signature: `Header`, with the checksum verdict all the same; with the
signature: success (44_edid_decode.md R161, R162). In the spec this rests on its own choices D22, D23
(92_eei_decisions.md). -/
def Obligations.HeaderDecidesStructure : Prop :=
  ∀ (s : State) (e : List Byte), s.blockIs e → ∃ t, exec .edid s = .next t ∧ s.onlyEd t ∧
    (t.edCsumOk = true ↔ (e.map BitVec.toNat).sum % 256 = 0) ∧
    (e.take 8 = [0x00, 0xFF, 0xFF, 0xFF, 0xFF, 0xFF, 0xFF, 0x00] → t.edOk = true ∧ t.edErr = 0) ∧
    (e.take 8 ≠ [0x00, 0xFF, 0xFF, 0xFF, 0xFF, 0xFF, 0xFF, 0x00] → t.edOk = false ∧ t.edErr = 2)

/-- Bytes 8 to 19: manufacturer, product, serial number, date, version (44_edid_decode.md R164 to R168). In the spec
this rests on its own choices D21, D26 (92_eei_decisions.md) and a layout from general knowledge. -/
def Obligations.IdentityFields : Prop :=
  ∀ (s : State) (e : List Byte), s.blockIs e → e.take 8 = Config.edidHeader →
    ∃ t, exec .edid s = .next t ∧ t.edOk = true ∧
      let w := 256 * (byteAt e 8).toNat + (byteAt e 9).toNat
      t.record.mfgId.toNat = w % 32768 ∧ t.record.mfgL1.toNat = w / 1024 % 32 ∧ t.record.mfgL2.toNat = w / 32 % 32 ∧
      t.record.mfgL3.toNat = w % 32 ∧
      t.record.product.toNat = (byteAt e 10).toNat + 256 * (byteAt e 11).toNat ∧
      t.record.serial.toNat = (byteAt e 12).toNat + 256 * (byteAt e 13).toNat + 65536 * (byteAt e 14).toNat +
        16777216 * (byteAt e 15).toNat ∧
      t.record.week = byteAt e 16 ∧ t.record.year = byteAt e 17 ∧ t.record.version = byteAt e 18 ∧
      t.record.revision = byteAt e 19

/-- Byte 20: the input variant, selected by bit 7, every bit accounted for (44_edid_decode.md R169). In the spec this
rests on its own choices D29 (92_eei_decisions.md) and a layout from general knowledge. -/
def Obligations.VideoInputVariant : Prop :=
  ∀ (s : State) (e : List Byte), s.blockIs e → e.take 8 = Config.edidHeader →
    ∃ t, exec .edid s = .next t ∧ t.edOk = true ∧
      (128 ≤ (byteAt e 20).toNat → ∃ dfp rsvd, t.record.vin = .digital dfp rsvd ∧
        (byteAt e 20).toNat = 128 + 2 * rsvd.toNat + dfp.toNat) ∧
      ((byteAt e 20).toNat < 128 → ∃ lv a b c d f, t.record.vin = .analog lv a b c d f ∧
        (byteAt e 20).toNat = 32 * lv.toNat + 16 * a.toNat + 8 * b.toNat + 4 * c.toNat + 2 * d.toNat + f.toNat)

/-- Bytes 21 to 24, 126 and 127: size, gamma, feature bits, extension count, checksum byte (44_edid_decode.md R170,
R171, R175). In the spec this rests on its own choices D21, D26, D29 (92_eei_decisions.md) and a layout from general
knowledge. -/
def Obligations.DisplayParameterFields : Prop :=
  ∀ (s : State) (e : List Byte), s.blockIs e → e.take 8 = Config.edidHeader →
    ∃ t, exec .edid s = .next t ∧ t.edOk = true ∧
      t.record.hsizeCm = byteAt e 21 ∧ t.record.vsizeCm = byteAt e 22 ∧ t.record.gamma = byteAt e 23 ∧
      (byteAt e 24).toNat = 128 * t.record.pwrStandby.toNat + 64 * t.record.pwrSuspend.toNat +
        32 * t.record.pwrActiveoff.toNat + 8 * t.record.dispType.toNat + 4 * t.record.srgb.toNat +
        2 * t.record.prefTiming.toNat + t.record.gtf.toNat ∧
      t.record.extCount = byteAt e 126 ∧ t.record.checksum = byteAt e 127

/-- Bytes 25 to 34: each coordinate is its high byte times four plus its two low bits (44_edid_decode.md R172). In the
spec this rests on its own choices D21 (92_eei_decisions.md) and a layout from general knowledge. -/
def Obligations.ChromaticityFields : Prop :=
  ∀ (s : State) (e : List Byte), s.blockIs e → e.take 8 = Config.edidHeader →
    ∃ t, exec .edid s = .next t ∧ t.edOk = true ∧
      let p := (byteAt e 25).toNat
      let q := (byteAt e 26).toNat
      t.record.redX.toNat = 4 * (byteAt e 27).toNat + p / 64 ∧
      t.record.redY.toNat = 4 * (byteAt e 28).toNat + p / 16 % 4 ∧
      t.record.greenX.toNat = 4 * (byteAt e 29).toNat + p / 4 % 4 ∧
      t.record.greenY.toNat = 4 * (byteAt e 30).toNat + p % 4 ∧
      t.record.blueX.toNat = 4 * (byteAt e 31).toNat + q / 64 ∧
      t.record.blueY.toNat = 4 * (byteAt e 32).toNat + q / 16 % 4 ∧
      t.record.whiteX.toNat = 4 * (byteAt e 33).toNat + q / 4 % 4 ∧
      t.record.whiteY.toNat = 4 * (byteAt e 34).toNat + q % 4

/-- Bytes 35 to 53: the established-timing bitmap and the eight standard timings (44_edid_decode.md R173, R174). In the
spec this rests on its own choices D21, D27, D30 (92_eei_decisions.md) and a layout from general knowledge. -/
def Obligations.TimingFields : Prop :=
  ∀ (s : State) (e : List Byte), s.blockIs e → e.take 8 = Config.edidHeader →
    ∃ t, exec .edid s = .next t ∧ t.edOk = true ∧
      t.record.est.toNat = 65536 * (byteAt e 35).toNat + 256 * (byteAt e 36).toNat + (byteAt e 37).toNat ∧
      ∀ k : Fin 8, t.record.std[k].hcode = byteAt e (38 + 2 * k.val) ∧
        (byteAt e (39 + 2 * k.val)).toNat = 64 * t.record.std[k].aspect.toNat + t.record.std[k].vcode.toNat ∧
        (t.record.std[k].used = false ↔ byteAt e (38 + 2 * k.val) = 0x01 ∧ byteAt e (39 + 2 * k.val) = 0x01)

/-- Bytes 54 to 125: each `DESC[k]` is what the selector gives for its own 18 bytes (44_edid_decode.md R163,
45_edid_descriptors.md R200). In the spec this rests on its own choices D21 (92_eei_decisions.md) and a layout from
general knowledge. -/
def Obligations.DescriptorsAreTheirSlots : Prop :=
  ∀ (s : State) (e : List Byte), s.blockIs e → e.take 8 = Config.edidHeader →
    ∃ t, exec .edid s = .next t ∧ t.edOk = true ∧
      ∀ (k : Fin 4) (d : List Byte), d.length = 18 → (∀ j, j < 18 → byteAt d j = byteAt e (54 + 18 * k.val + j)) →
        t.record.desc[k] = slotDesc d

/-- Decoding twice: the input buffer is not written, the second run gives the same status, and the same record where the
first was a structural success (44_edid_decode.md R176). -/
def Obligations.EdidIsIdempotent : Prop :=
  ∀ s t : State, exec .edid s = .next t → t.edbuf = s.edbuf ∧ t.edlen = s.edlen ∧
    ∃ u, exec .edid t = .next u ∧ u.edOk = t.edOk ∧ u.edErr = t.edErr ∧ u.edCsumOk = t.edCsumOk ∧
      (t.edOk = true → u.record = t.record)

/-- Changing the final byte of a block with the signature and a right checksum turns `ED_CSUM_OK` to 0 and leaves every
record register but `CHECKSUM` as it was (44_edid_decode.md R177). -/
def Obligations.FinalByteFlipsOnlyTheVerdict : Prop :=
  ∀ (s s' : State) (p : List Byte) (b b' : Byte), p.length = 127 → p.take 8 = Config.edidHeader →
    sum8 (p ++ [b]) = 0x00 → b' ≠ b → s.blockIs (p ++ [b]) → s'.blockIs (p ++ [b']) →
    ∃ t t', exec .edid s = .next t ∧ exec .edid s' = .next t' ∧ t.edOk = true ∧ t'.edOk = true ∧
      t.edCsumOk = true ∧ t'.edCsumOk = false ∧ t'.record = { t.record with checksum := b' }

/-! ### The descriptor slots -/

/-- The selector: the first test of R201 that applies decides the constructor, for every 18-byte content, and the tags
choose as 45_edid_descriptors.md R201 lists them. In the spec this rests on its own choices D24
(92_eei_decisions.md). -/
def Obligations.SelectorFollowsTheTests : Prop :=
  ∀ d : List Byte, d.length = 18 →
    let empty := d = List.replicate 18 0x00 ∨ d = List.replicate 18 0xFF
    let clock := byteAt d 0 ≠ 0x00 ∨ byteAt d 1 ≠ 0x00
    let tagged := ¬ empty ∧ ¬ clock ∧ byteAt d 2 = 0x00
    (empty → slotDesc d = .unused) ∧
    (¬ empty → clock → slotDesc d = .dtd (dtdOf d)) ∧
    (¬ empty → ¬ clock → byteAt d 2 ≠ 0x00 → slotDesc d = .unused) ∧
    (tagged → byteAt d 3 = 0xFF → slotDesc d = textOf .serial d) ∧
    (tagged → byteAt d 3 = 0xFE → slotDesc d = textOf .comment d) ∧
    (tagged → byteAt d 3 = 0xFD → slotDesc d = .range (rangeOf d)) ∧
    (tagged → byteAt d 3 = 0xFC → slotDesc d = textOf .name d) ∧
    (tagged → byteAt d 3 = 0xFB → slotDesc d = whiteOf d) ∧
    (tagged → (byteAt d 3).toNat < 0xFB → slotDesc d = .unused)

/-- The table's nine rows, tried in their order, and the selector of R201 agree on every content: running the row a slot
decodes to puts the selector's descriptor in `DESC[k]` and changes nothing else (30_encoding.md R94). That a slot row
runs as a step of its own, into `DESC[k]` alone, is the model's choice, log entry 8. In the spec this rests on its own
choices D24 (92_eei_decisions.md) and an inference it marks derived. -/
def Obligations.SlotRowsAgreeWithTheSelector : Prop :=
  ∀ (k : Fin 4) (d : List Byte) (i : Instr) (s : State), decode (.slot k) d = .ok i →
    ∃ t, exec i s = .next t ∧ t.record.desc[k] = slotDesc d ∧ s.onlyDesc t k

/-- After a successful `EDID`, running the row of any slot from `EDBUF` changes nothing: the command's descriptors are
what the rows give. The slot ports are the model's choice, log entry 8. In the spec this rests on its own choices D21,
D24 (92_eei_decisions.md), a layout from general knowledge and an inference it marks derived. -/
def Obligations.SlotRowsRepeatTheCommand : Prop :=
  ∀ s t : State, exec .edid s = .next t → t.edOk = true →
    ∀ k : Fin 4, step (t.setPort (.slot k)) = .next (t.setPort (.slot k))

/-- The detailed-timing row: every field of R203, as natural numbers, into `DESC[k]` alone (45_edid_descriptors.md
R203). That a slot row runs as a step of its own, into `DESC[k]` alone, is the model's choice, log entry 8. In the spec
this rests on its own choices D21, D31 (92_eei_decisions.md) and a layout from general knowledge. -/
def Obligations.DetailedTimingRow : Prop :=
  ∀ (k : Fin 4) (d : List Byte) (s : State), d.length = 18 →
    ∃ t f, exec (.slotDtd k d) s = .next t ∧ s.onlyDesc t k ∧ t.record.desc[k] = .dtd f ∧
      let b := fun j => (byteAt d j).toNat
      f.pixclk.toNat = b 0 + 256 * b 1 ∧
      f.hact.toNat = 256 * (b 4 / 16) + b 2 ∧ f.hblank.toNat = 256 * (b 4 % 16) + b 3 ∧
      f.vact.toNat = 256 * (b 7 / 16) + b 5 ∧ f.vblank.toNat = 256 * (b 7 % 16) + b 6 ∧
      f.hso.toNat = 256 * (b 11 / 64) + b 8 ∧ f.hspw.toNat = 256 * (b 11 / 16 % 4) + b 9 ∧
      f.vso.toNat = 16 * (b 11 / 4 % 4) + b 10 / 16 ∧ f.vspw.toNat = 16 * (b 11 % 4) + b 10 % 16 ∧
      f.himgMm.toNat = 256 * (b 14 / 16) + b 12 ∧ f.vimgMm.toNat = 256 * (b 14 % 16) + b 13 ∧
      f.hborder.toNat = b 15 ∧ f.vborder.toNat = b 16 ∧
      f.interlaced.toNat = b 17 / 128 ∧ f.stereo.toNat = 2 * (b 17 / 32 % 4) + b 17 % 2 ∧
      f.syncType.toNat = b 17 / 8 % 4 ∧ f.syncOpt.toNat = b 17 / 2 % 4

/-- The three text rows: the kind, the 13 bytes as found, and `TLEN` the least index of 0x0A or 13
(45_edid_descriptors.md R205). That a slot row runs as a step of its own, into `DESC[k]` alone, is the model's choice,
log entry 8. In the spec this rests on its own choices D25 (92_eei_decisions.md) and a layout from general knowledge. -/
def Obligations.TextRows : Prop :=
  ∀ (k : Fin 4) (body : List Byte) (s : State), body.length = 14 →
    let fine := fun (kind : TextKind) (t : State) => s.onlyDesc t k ∧
      ∃ data tlen, t.record.desc[k] = .text kind data tlen ∧
        (∀ j : Fin 13, data[j] = byteAt body (1 + j.val)) ∧ tlen.toNat ≤ 13 ∧
        (∀ j : Fin 13, j.val < tlen.toNat → data[j] ≠ 0x0A) ∧
        (∀ j : Fin 13, j.val = tlen.toNat → data[j] = 0x0A)
    (∃ t, exec (.slotTextSerial k body) s = .next t ∧ fine .serial t) ∧
    (∃ t, exec (.slotTextComment k body) s = .next t ∧ fine .comment t) ∧
    ∃ t, exec (.slotTextName k body) s = .next t ∧ fine .name t

/-- The range-limits row (45_edid_descriptors.md R206). That a slot row runs as a step of its own, into `DESC[k]` alone,
is the model's choice, log entry 8. In the spec this rests on its own choices D32 (92_eei_decisions.md) and a layout
from general knowledge. -/
def Obligations.RangeLimitsRow : Prop :=
  ∀ (k : Fin 4) (body : List Byte) (s : State), body.length = 14 →
    ∃ t r, exec (.slotRange k body) s = .next t ∧ s.onlyDesc t k ∧ t.record.desc[k] = .range r ∧
      [r.vmin, r.vmax, r.hmin, r.hmax, r.pclkMax, r.formula] ++ r.tail.toList = body.drop 1

/-- The white-point row: two entries and three tail bytes (45_edid_descriptors.md R207). That a slot row runs as a step
of its own, into `DESC[k]` alone, is the model's choice, log entry 8. In the spec this rests on its own choices D32
(92_eei_decisions.md) and a layout from general knowledge. -/
def Obligations.WhitePointRow : Prop :=
  ∀ (k : Fin 4) (body : List Byte) (s : State), body.length = 14 →
    ∃ t a b tail, exec (.slotWhite k body) s = .next t ∧ s.onlyDesc t k ∧ t.record.desc[k] = .white a b tail ∧
      let v := fun j => (byteAt body j).toNat
      a.index = byteAt body 1 ∧ a.wx.toNat = 4 * v 3 + v 2 / 4 % 4 ∧ a.wy.toNat = 4 * v 4 + v 2 % 4 ∧
      a.wgamma = byteAt body 5 ∧
      b.index = byteAt body 6 ∧ b.wx.toNat = 4 * v 8 + v 7 / 4 % 4 ∧ b.wy.toNat = 4 * v 9 + v 7 % 4 ∧
      b.wgamma = byteAt body 10 ∧
      tail.toList = body.drop 11

/-- The three unused rows: `UNUSED`, and nothing of the slot reported (45_edid_descriptors.md R208). That a slot row
runs as a step of its own, into `DESC[k]` alone, is the model's choice, log entry 8. In the spec this rests on its own
choices D24 (92_eei_decisions.md). -/
def Obligations.UnusedRows : Prop :=
  ∀ (k : Fin 4) (body : List Byte) (s : State),
    (∃ t, exec (.slotUnusedZero k) s = .next t ∧ s.onlyDesc t k ∧ t.record.desc[k] = .unused) ∧
    (∃ t, exec (.slotUnusedOnes k) s = .next t ∧ s.onlyDesc t k ∧ t.record.desc[k] = .unused) ∧
    ∃ t, exec (.slotUnusedOther k body) s = .next t ∧ s.onlyDesc t k ∧ t.record.desc[k] = .unused

/-! ### Frames, independence, invariants -/

/-- What each row may change, its own result group alone: no row changes an operand register, an input buffer, or
another row's group (10_state.md R22). What a row writes there is said by the statements about it. That the frame and
slot rows run as steps of their own, and which group each has, is the model's choice, log entry 8. In the spec this
rests on its own choices D14 (92_eei_decisions.md). -/
def Obligations.EachRowChangesOnlyItsGroup : Prop :=
  ∀ (i : Instr) (s t : State), exec i s = .next t →
    match i with
    | .encw => s.onlyTx t
    | .encr => s.onlyTx t
    | .frameW _ _ _ _ => s.onlyTx t
    | .frameR _ _ => s.onlyTx t
    | .decr => s.onlyRr t
    | .frameP _ _ _ _ _ _ _ _ _ _ _ => s.onlyRr t
    | .edid => s.onlyEd t
    | .slotUnusedZero k => s.onlyDesc t k
    | .slotUnusedOnes k => s.onlyDesc t k
    | .slotTextSerial k _ => s.onlyDesc t k
    | .slotTextComment k _ => s.onlyDesc t k
    | .slotRange k _ => s.onlyDesc t k
    | .slotTextName k _ => s.onlyDesc t k
    | .slotWhite k _ => s.onlyDesc t k
    | .slotUnusedOther k _ => s.onlyDesc t k
    | .slotDtd k _ => s.onlyDesc t k

/-- Each command ignores the operand registers it does not read (10_state.md R27). In the spec this rests on an
inference it marks derived. -/
def Obligations.UnreadOperandsDoNotMatter : Prop :=
  ∀ (s : State) (c : Byte) (v : BitVec Config.vw) (n m : BitVec 8),
    exec .encr { s with val := v, rxlen := n, edlen := m } =
      andThen (exec .encr s) (fun t => .next { t with val := v, rxlen := n, edlen := m }) ∧
    exec .encw { s with rxlen := n, edlen := m } =
      andThen (exec .encw s) (fun t => .next { t with rxlen := n, edlen := m }) ∧
    exec .decr { s with val := v, edlen := m } =
      andThen (exec .decr s) (fun t => .next { t with val := v, edlen := m }) ∧
    exec .edid { s with cid := c, val := v, rxlen := n } =
      andThen (exec .edid s) (fun t => .next { t with cid := c, val := v, rxlen := n })

/-- Buffer cells at or past `RXLEN` and `EDLEN` cannot affect any result of any row (10_state.md R29). -/
def Obligations.CellsPastTheLengthDoNotMatter : Prop :=
  ∀ (i : Instr) (s : State) (rx ed : Memory),
    (∀ j, j < s.rxlen.toNat → Memory.read rx j = Memory.read s.rxbuf j) →
    (∀ j, j < s.edlen.toNat → Memory.read ed j = Memory.read s.edbuf j) →
    exec i { s with rxbuf := rx, edbuf := ed } =
      andThen (exec i s) (fun t => .next { t with rxbuf := rx, edbuf := ed })

/-- A command's defined results do not depend on any result register, on an operand or a buffer it does not read or on
earlier commands: two states that agree on the operands and the buffer the command reads, and on nothing else, get the
same results (10_state.md R23). -/
def Obligations.ResultsDependOnOperandsAlone : Prop :=
  ∀ s s' : State,
    (s'.cid = s.cid → s'.val = s.val → ∀ t, exec .encw s = .next t → ∃ t', exec .encw s' = .next t' ∧
      t'.txlen = t.txlen ∧ readRange t' .tx 0 7 = readRange t .tx 0 7) ∧
    (s'.cid = s.cid → ∀ t, exec .encr s = .next t → ∃ t', exec .encr s' = .next t' ∧
      t'.txlen = t.txlen ∧ readRange t' .tx 0 5 = readRange t .tx 0 5) ∧
    (s'.cid = s.cid → s'.rxlen = s.rxlen → s'.rxbuf = s.rxbuf → ∀ t, exec .decr s = .next t →
      ∃ t', exec .decr s' = .next t' ∧ t'.rrValid = t.rrValid ∧ t'.rrFail = t.rrFail ∧
        (t.rrValid = true → t'.rrMax = t.rrMax ∧ t'.rrCur = t.rrCur)) ∧
    (s'.edlen = s.edlen → s'.edbuf = s.edbuf → ∀ t, exec .edid s = .next t →
      ∃ t', exec .edid s' = .next t' ∧ t'.edOk = t.edOk ∧ t'.edErr = t.edErr ∧ t'.edCsumOk = t.edCsumOk ∧
        (t.edOk = true → t'.record = t.record))

/-- Every step keeps the invariant: the buffers' canonical form, legal status codes, and a record whose registers agree
with each other while `ED_OK` is 1. From every state that has it, not only from reset. In the spec this rests on its own
choices D10, D14, D21, D22, D23, D25, D31, D32 (92_eei_decisions.md) and a layout from general knowledge. -/
def Obligations.StepKeepsTheInvariant : Prop :=
  ∀ s t : State, s.inv = true → step s = .next t → t.inv = true

/-- The reset state has the invariant; no buffer cell holds a value (10_state.md R45). The registers' reset values are
the model's choice, log entries 1 and 2, and only enter through the invariant's clause for `TXLEN`. In the spec this
rests on its own choices D15 (92_eei_decisions.md). -/
def Obligations.ResetHasTheInvariant : Prop :=
  State.reset.inv = true ∧ ∀ (b : Buffer) (i : Nat), Memory.read (State.reset.buf b) i = none

/-! ### The host's sequences -/

/-- `get_control` all of whose attempts fail, by a timeout, a transient error, no bytes, or a reply that fails a check,
makes exactly `max_retries + 1` attempts, sends the request each time, gives the lock back and reports an invalid
response with the cause of the last attempt; where no attempt fetched a byte, no `DECR` ran, group RR is as it was and
`RXLEN` is 0 (43_vcp_transactions.md R145, R146, R147, R148). Answers that run out are timeouts. The session is outside
the block, log entry 14. In the spec this rests on an inference it marks derived. -/
def Obligations.FailedAttemptsExhaustTheRetries : Prop :=
  ∀ (n : Nat) (c : Byte) (fs : List Fetched) (h : Session), (∀ f ∈ fs.take (n + 1), f.fails c) →
    ∃ h', getControl n c fs h = .next (h', .invalid ((fs.getD n .timeout).cause c)) ∧ h'.attempts = n + 1 ∧
      h'.sent = h.sent ++ List.replicate (n + 1) (frameRBytes c) ∧ h'.locked = false ∧
      ((∀ f ∈ fs.take (n + 1), f.received = []) → h'.block.rxlen = 0 ∧ h'.block.rrValid = h.block.rrValid ∧
        h'.block.rrFail = h.block.rrFail ∧ h'.block.rrMax = h.block.rrMax ∧ h'.block.rrCur = h.block.rrCur)

/-- `get_control` returns the values of the first reply that passes every check, or reports `TransportUnavailable` at
the first fetch that finds the session unusable, after any failed attempts within its retries, and gives the lock back
(43_vcp_transactions.md R145, R146, R147). The session is outside the block, log entry 14. -/
def Obligations.GetControlEndsAtTheFirstGoodReply : Prop :=
  ∀ (n : Nat) (c : Byte) (fs rest : List Fetched) (h : Session), fs.length ≤ n → (∀ f ∈ fs, f.fails c) →
    (∀ (g : Fetched) (m v : BitVec 16), g.carries c m v → ∃ h', getControl n c (fs ++ g :: rest) h =
        .next (h', .response m v) ∧ h'.attempts = fs.length + 1 ∧
      h'.sent = h.sent ++ List.replicate (fs.length + 1) (frameRBytes c) ∧ h'.locked = false ∧
      h'.block.rrValid = true ∧ h'.block.rrMax = m ∧ h'.block.rrCur = v) ∧
    ∃ h', getControl n c (fs ++ .unusable :: rest) h = .next (h', .transportUnavailable) ∧
      h'.attempts = fs.length + 1 ∧ h'.sent = h.sent ++ List.replicate (fs.length + 1) (frameRBytes c) ∧
      h'.locked = false

/-- `set_control` writes the operands and `CMD`, sends the one write frame, gives the lock back and changes no result
group but TX (43_vcp_transactions.md R143). The session is outside the block, log entry 14. -/
def Obligations.SetControlSendsOneWriteFrame : Prop :=
  ∀ (c : Byte) (x : BitVec Config.vw) (ok : Bool) (h : Session), ∃ h', setControl c x ok h = .next (h', ok) ∧
    h'.sent = h.sent ++ [frameWBytes c (zext16 x)] ∧ h'.locked = false ∧ h'.attempts = h.attempts ∧
    ((((h.block.setCid c).setVal x).setPort .command).setCmd 0).onlyTx h'.block

/-- `read_edid`: a transport error is reported as `TransportUnavailable`; a short answer or a missing signature is a
structural parse error, a bad checksum is not (43_vcp_transactions.md R149). R149 allows the transport's own error too: that
every error is reported as this one is the model's choice, log entry 14, as is the session outside the block. -/
def Obligations.ReadEdidOutcomes : Prop :=
  (∀ h : Session, ∃ h', readEdid none h = .next (h', .transportUnavailable) ∧ h'.locked = false ∧ h'.block = h.block) ∧
  ∀ (bs : List Byte) (h : Session), ∃ h' r, readEdid (some bs) h = .next (h', r) ∧ h'.locked = false ∧
    (bs.length < 128 → r = .structuralParseError 1) ∧
    (128 ≤ bs.length → bs.take 8 ≠ Config.edidHeader → r = .structuralParseError 2) ∧
    (128 ≤ bs.length → bs.take 8 = Config.edidHeader →
      r = .parsed (recordOf (bs.take 128)) (sum8 (bs.take 128) == 0x00))
end

