-- ==== Sys2Proof/Laws/Checksum.lean ====
section
/-! SUPPORT. The small laws of the two functional units. -/

namespace Sys2Proof.Machine

/-- The fold of nothing is the seed (40_checksum.md R100). -/
@[simp] theorem xorFold_nil (seed : Byte) : xorFold seed [] = seed := rfl

/-- The fold takes one byte in. -/
theorem xorFold_cons (seed b : Byte) (s : List Byte) : xorFold seed (b :: s) = xorFold (seed ^^^ b) s := rfl

/-- The fold of a concatenation folds the second part from the first part's fold. -/
theorem xorFold_append (seed : Byte) (s t : List Byte) : xorFold seed (s ++ t) = xorFold (xorFold seed s) t := by
  simp [xorFold]

/-- The sum of nothing is 0 (40_checksum.md R103). -/
@[simp] theorem sum8_nil : sum8 [] = 0 := rfl

/-- The sum of a list with one more byte at its end. -/
theorem sum8_concat (s : List Byte) (b : Byte) : sum8 (s ++ [b]) = sum8 s + b := by
  simp [sum8]

end Sys2Proof.Machine
end

