-- ==== Sys2Proof/Laws/State.lean ====
section
/-! SUPPORT. What each update of State leaves in each field: one lemma per field per update. -/

namespace Sys2Proof.Machine

@[simp] theorem State.setTx_cmd (s : State) (len : BitVec 3) (buf : Memory) : (s.setTx len buf).cmd = s.cmd := rfl
@[simp] theorem State.setTx_cid (s : State) (len : BitVec 3) (buf : Memory) : (s.setTx len buf).cid = s.cid := rfl
@[simp] theorem State.setTx_val (s : State) (len : BitVec 3) (buf : Memory) : (s.setTx len buf).val = s.val := rfl
@[simp] theorem State.setTx_rxlen (s : State) (len : BitVec 3) (buf : Memory) : (s.setTx len buf).rxlen = s.rxlen := rfl
@[simp] theorem State.setTx_edlen (s : State) (len : BitVec 3) (buf : Memory) : (s.setTx len buf).edlen = s.edlen := rfl
@[simp] theorem State.setTx_txbuf (s : State) (len : BitVec 3) (buf : Memory) : (s.setTx len buf).txbuf = buf := rfl
@[simp] theorem State.setTx_rxbuf (s : State) (len : BitVec 3) (buf : Memory) : (s.setTx len buf).rxbuf = s.rxbuf := rfl
@[simp] theorem State.setTx_edbuf (s : State) (len : BitVec 3) (buf : Memory) : (s.setTx len buf).edbuf = s.edbuf := rfl
@[simp] theorem State.setTx_txlen (s : State) (len : BitVec 3) (buf : Memory) : (s.setTx len buf).txlen = len := rfl
@[simp] theorem State.setTx_rrValid (s : State) (len : BitVec 3) (buf : Memory) : (s.setTx len buf).rrValid = s.rrValid := rfl
@[simp] theorem State.setTx_rrFail (s : State) (len : BitVec 3) (buf : Memory) : (s.setTx len buf).rrFail = s.rrFail := rfl
@[simp] theorem State.setTx_rrMax (s : State) (len : BitVec 3) (buf : Memory) : (s.setTx len buf).rrMax = s.rrMax := rfl
@[simp] theorem State.setTx_rrCur (s : State) (len : BitVec 3) (buf : Memory) : (s.setTx len buf).rrCur = s.rrCur := rfl
@[simp] theorem State.setTx_edOk (s : State) (len : BitVec 3) (buf : Memory) : (s.setTx len buf).edOk = s.edOk := rfl
@[simp] theorem State.setTx_edErr (s : State) (len : BitVec 3) (buf : Memory) : (s.setTx len buf).edErr = s.edErr := rfl
@[simp] theorem State.setTx_edCsumOk (s : State) (len : BitVec 3) (buf : Memory) : (s.setTx len buf).edCsumOk = s.edCsumOk := rfl
@[simp] theorem State.setTx_record (s : State) (len : BitVec 3) (buf : Memory) : (s.setTx len buf).record = s.record := rfl
@[simp] theorem State.setTx_port (s : State) (len : BitVec 3) (buf : Memory) : (s.setTx len buf).port = s.port := rfl
@[simp] theorem State.setTx_fresh (s : State) (len : BitVec 3) (buf : Memory) : (s.setTx len buf).fresh = s.fresh := rfl

@[simp] theorem State.setRr_cmd (s : State) (valid : Bool) (fail : BitVec 3) (max cur : BitVec 16) : (s.setRr valid fail max cur).cmd = s.cmd := rfl
@[simp] theorem State.setRr_cid (s : State) (valid : Bool) (fail : BitVec 3) (max cur : BitVec 16) : (s.setRr valid fail max cur).cid = s.cid := rfl
@[simp] theorem State.setRr_val (s : State) (valid : Bool) (fail : BitVec 3) (max cur : BitVec 16) : (s.setRr valid fail max cur).val = s.val := rfl
@[simp] theorem State.setRr_rxlen (s : State) (valid : Bool) (fail : BitVec 3) (max cur : BitVec 16) : (s.setRr valid fail max cur).rxlen = s.rxlen := rfl
@[simp] theorem State.setRr_edlen (s : State) (valid : Bool) (fail : BitVec 3) (max cur : BitVec 16) : (s.setRr valid fail max cur).edlen = s.edlen := rfl
@[simp] theorem State.setRr_txbuf (s : State) (valid : Bool) (fail : BitVec 3) (max cur : BitVec 16) : (s.setRr valid fail max cur).txbuf = s.txbuf := rfl
@[simp] theorem State.setRr_rxbuf (s : State) (valid : Bool) (fail : BitVec 3) (max cur : BitVec 16) : (s.setRr valid fail max cur).rxbuf = s.rxbuf := rfl
@[simp] theorem State.setRr_edbuf (s : State) (valid : Bool) (fail : BitVec 3) (max cur : BitVec 16) : (s.setRr valid fail max cur).edbuf = s.edbuf := rfl
@[simp] theorem State.setRr_txlen (s : State) (valid : Bool) (fail : BitVec 3) (max cur : BitVec 16) : (s.setRr valid fail max cur).txlen = s.txlen := rfl
@[simp] theorem State.setRr_rrValid (s : State) (valid : Bool) (fail : BitVec 3) (max cur : BitVec 16) : (s.setRr valid fail max cur).rrValid = valid := rfl
@[simp] theorem State.setRr_rrFail (s : State) (valid : Bool) (fail : BitVec 3) (max cur : BitVec 16) : (s.setRr valid fail max cur).rrFail = fail := rfl
@[simp] theorem State.setRr_rrMax (s : State) (valid : Bool) (fail : BitVec 3) (max cur : BitVec 16) : (s.setRr valid fail max cur).rrMax = max := rfl
@[simp] theorem State.setRr_rrCur (s : State) (valid : Bool) (fail : BitVec 3) (max cur : BitVec 16) : (s.setRr valid fail max cur).rrCur = cur := rfl
@[simp] theorem State.setRr_edOk (s : State) (valid : Bool) (fail : BitVec 3) (max cur : BitVec 16) : (s.setRr valid fail max cur).edOk = s.edOk := rfl
@[simp] theorem State.setRr_edErr (s : State) (valid : Bool) (fail : BitVec 3) (max cur : BitVec 16) : (s.setRr valid fail max cur).edErr = s.edErr := rfl
@[simp] theorem State.setRr_edCsumOk (s : State) (valid : Bool) (fail : BitVec 3) (max cur : BitVec 16) : (s.setRr valid fail max cur).edCsumOk = s.edCsumOk := rfl
@[simp] theorem State.setRr_record (s : State) (valid : Bool) (fail : BitVec 3) (max cur : BitVec 16) : (s.setRr valid fail max cur).record = s.record := rfl
@[simp] theorem State.setRr_port (s : State) (valid : Bool) (fail : BitVec 3) (max cur : BitVec 16) : (s.setRr valid fail max cur).port = s.port := rfl
@[simp] theorem State.setRr_fresh (s : State) (valid : Bool) (fail : BitVec 3) (max cur : BitVec 16) : (s.setRr valid fail max cur).fresh = s.fresh := rfl

@[simp] theorem State.setEd_cmd (s : State) (ok : Bool) (err : BitVec 2) (csum : Bool) (r : Record) : (s.setEd ok err csum r).cmd = s.cmd := rfl
@[simp] theorem State.setEd_cid (s : State) (ok : Bool) (err : BitVec 2) (csum : Bool) (r : Record) : (s.setEd ok err csum r).cid = s.cid := rfl
@[simp] theorem State.setEd_val (s : State) (ok : Bool) (err : BitVec 2) (csum : Bool) (r : Record) : (s.setEd ok err csum r).val = s.val := rfl
@[simp] theorem State.setEd_rxlen (s : State) (ok : Bool) (err : BitVec 2) (csum : Bool) (r : Record) : (s.setEd ok err csum r).rxlen = s.rxlen := rfl
@[simp] theorem State.setEd_edlen (s : State) (ok : Bool) (err : BitVec 2) (csum : Bool) (r : Record) : (s.setEd ok err csum r).edlen = s.edlen := rfl
@[simp] theorem State.setEd_txbuf (s : State) (ok : Bool) (err : BitVec 2) (csum : Bool) (r : Record) : (s.setEd ok err csum r).txbuf = s.txbuf := rfl
@[simp] theorem State.setEd_rxbuf (s : State) (ok : Bool) (err : BitVec 2) (csum : Bool) (r : Record) : (s.setEd ok err csum r).rxbuf = s.rxbuf := rfl
@[simp] theorem State.setEd_edbuf (s : State) (ok : Bool) (err : BitVec 2) (csum : Bool) (r : Record) : (s.setEd ok err csum r).edbuf = s.edbuf := rfl
@[simp] theorem State.setEd_txlen (s : State) (ok : Bool) (err : BitVec 2) (csum : Bool) (r : Record) : (s.setEd ok err csum r).txlen = s.txlen := rfl
@[simp] theorem State.setEd_rrValid (s : State) (ok : Bool) (err : BitVec 2) (csum : Bool) (r : Record) : (s.setEd ok err csum r).rrValid = s.rrValid := rfl
@[simp] theorem State.setEd_rrFail (s : State) (ok : Bool) (err : BitVec 2) (csum : Bool) (r : Record) : (s.setEd ok err csum r).rrFail = s.rrFail := rfl
@[simp] theorem State.setEd_rrMax (s : State) (ok : Bool) (err : BitVec 2) (csum : Bool) (r : Record) : (s.setEd ok err csum r).rrMax = s.rrMax := rfl
@[simp] theorem State.setEd_rrCur (s : State) (ok : Bool) (err : BitVec 2) (csum : Bool) (r : Record) : (s.setEd ok err csum r).rrCur = s.rrCur := rfl
@[simp] theorem State.setEd_edOk (s : State) (ok : Bool) (err : BitVec 2) (csum : Bool) (r : Record) : (s.setEd ok err csum r).edOk = ok := rfl
@[simp] theorem State.setEd_edErr (s : State) (ok : Bool) (err : BitVec 2) (csum : Bool) (r : Record) : (s.setEd ok err csum r).edErr = err := rfl
@[simp] theorem State.setEd_edCsumOk (s : State) (ok : Bool) (err : BitVec 2) (csum : Bool) (r : Record) : (s.setEd ok err csum r).edCsumOk = csum := rfl
@[simp] theorem State.setEd_record (s : State) (ok : Bool) (err : BitVec 2) (csum : Bool) (r : Record) : (s.setEd ok err csum r).record = r := rfl
@[simp] theorem State.setEd_port (s : State) (ok : Bool) (err : BitVec 2) (csum : Bool) (r : Record) : (s.setEd ok err csum r).port = s.port := rfl
@[simp] theorem State.setEd_fresh (s : State) (ok : Bool) (err : BitVec 2) (csum : Bool) (r : Record) : (s.setEd ok err csum r).fresh = s.fresh := rfl

@[simp] theorem State.setRecord_cmd (s : State) (r : Record) : (s.setRecord r).cmd = s.cmd := rfl
@[simp] theorem State.setRecord_cid (s : State) (r : Record) : (s.setRecord r).cid = s.cid := rfl
@[simp] theorem State.setRecord_val (s : State) (r : Record) : (s.setRecord r).val = s.val := rfl
@[simp] theorem State.setRecord_rxlen (s : State) (r : Record) : (s.setRecord r).rxlen = s.rxlen := rfl
@[simp] theorem State.setRecord_edlen (s : State) (r : Record) : (s.setRecord r).edlen = s.edlen := rfl
@[simp] theorem State.setRecord_txbuf (s : State) (r : Record) : (s.setRecord r).txbuf = s.txbuf := rfl
@[simp] theorem State.setRecord_rxbuf (s : State) (r : Record) : (s.setRecord r).rxbuf = s.rxbuf := rfl
@[simp] theorem State.setRecord_edbuf (s : State) (r : Record) : (s.setRecord r).edbuf = s.edbuf := rfl
@[simp] theorem State.setRecord_txlen (s : State) (r : Record) : (s.setRecord r).txlen = s.txlen := rfl
@[simp] theorem State.setRecord_rrValid (s : State) (r : Record) : (s.setRecord r).rrValid = s.rrValid := rfl
@[simp] theorem State.setRecord_rrFail (s : State) (r : Record) : (s.setRecord r).rrFail = s.rrFail := rfl
@[simp] theorem State.setRecord_rrMax (s : State) (r : Record) : (s.setRecord r).rrMax = s.rrMax := rfl
@[simp] theorem State.setRecord_rrCur (s : State) (r : Record) : (s.setRecord r).rrCur = s.rrCur := rfl
@[simp] theorem State.setRecord_edOk (s : State) (r : Record) : (s.setRecord r).edOk = s.edOk := rfl
@[simp] theorem State.setRecord_edErr (s : State) (r : Record) : (s.setRecord r).edErr = s.edErr := rfl
@[simp] theorem State.setRecord_edCsumOk (s : State) (r : Record) : (s.setRecord r).edCsumOk = s.edCsumOk := rfl
@[simp] theorem State.setRecord_record (s : State) (r : Record) : (s.setRecord r).record = r := rfl
@[simp] theorem State.setRecord_port (s : State) (r : Record) : (s.setRecord r).port = s.port := rfl
@[simp] theorem State.setRecord_fresh (s : State) (r : Record) : (s.setRecord r).fresh = s.fresh := rfl

@[simp] theorem State.bump_cmd (s : State) : (s.bump).cmd = s.cmd := rfl
@[simp] theorem State.bump_cid (s : State) : (s.bump).cid = s.cid := rfl
@[simp] theorem State.bump_val (s : State) : (s.bump).val = s.val := rfl
@[simp] theorem State.bump_rxlen (s : State) : (s.bump).rxlen = s.rxlen := rfl
@[simp] theorem State.bump_edlen (s : State) : (s.bump).edlen = s.edlen := rfl
@[simp] theorem State.bump_txbuf (s : State) : (s.bump).txbuf = s.txbuf := rfl
@[simp] theorem State.bump_rxbuf (s : State) : (s.bump).rxbuf = s.rxbuf := rfl
@[simp] theorem State.bump_edbuf (s : State) : (s.bump).edbuf = s.edbuf := rfl
@[simp] theorem State.bump_txlen (s : State) : (s.bump).txlen = s.txlen := rfl
@[simp] theorem State.bump_rrValid (s : State) : (s.bump).rrValid = s.rrValid := rfl
@[simp] theorem State.bump_rrFail (s : State) : (s.bump).rrFail = s.rrFail := rfl
@[simp] theorem State.bump_rrMax (s : State) : (s.bump).rrMax = s.rrMax := rfl
@[simp] theorem State.bump_rrCur (s : State) : (s.bump).rrCur = s.rrCur := rfl
@[simp] theorem State.bump_edOk (s : State) : (s.bump).edOk = s.edOk := rfl
@[simp] theorem State.bump_edErr (s : State) : (s.bump).edErr = s.edErr := rfl
@[simp] theorem State.bump_edCsumOk (s : State) : (s.bump).edCsumOk = s.edCsumOk := rfl
@[simp] theorem State.bump_record (s : State) : (s.bump).record = s.record := rfl
@[simp] theorem State.bump_port (s : State) : (s.bump).port = s.port := rfl
@[simp] theorem State.bump_fresh (s : State) : (s.bump).fresh = s.fresh + 1 := rfl

@[simp] theorem State.setPort_cmd (s : State) (p : Port) : (s.setPort p).cmd = s.cmd := rfl
@[simp] theorem State.setPort_cid (s : State) (p : Port) : (s.setPort p).cid = s.cid := rfl
@[simp] theorem State.setPort_val (s : State) (p : Port) : (s.setPort p).val = s.val := rfl
@[simp] theorem State.setPort_rxlen (s : State) (p : Port) : (s.setPort p).rxlen = s.rxlen := rfl
@[simp] theorem State.setPort_edlen (s : State) (p : Port) : (s.setPort p).edlen = s.edlen := rfl
@[simp] theorem State.setPort_txbuf (s : State) (p : Port) : (s.setPort p).txbuf = s.txbuf := rfl
@[simp] theorem State.setPort_rxbuf (s : State) (p : Port) : (s.setPort p).rxbuf = s.rxbuf := rfl
@[simp] theorem State.setPort_edbuf (s : State) (p : Port) : (s.setPort p).edbuf = s.edbuf := rfl
@[simp] theorem State.setPort_txlen (s : State) (p : Port) : (s.setPort p).txlen = s.txlen := rfl
@[simp] theorem State.setPort_rrValid (s : State) (p : Port) : (s.setPort p).rrValid = s.rrValid := rfl
@[simp] theorem State.setPort_rrFail (s : State) (p : Port) : (s.setPort p).rrFail = s.rrFail := rfl
@[simp] theorem State.setPort_rrMax (s : State) (p : Port) : (s.setPort p).rrMax = s.rrMax := rfl
@[simp] theorem State.setPort_rrCur (s : State) (p : Port) : (s.setPort p).rrCur = s.rrCur := rfl
@[simp] theorem State.setPort_edOk (s : State) (p : Port) : (s.setPort p).edOk = s.edOk := rfl
@[simp] theorem State.setPort_edErr (s : State) (p : Port) : (s.setPort p).edErr = s.edErr := rfl
@[simp] theorem State.setPort_edCsumOk (s : State) (p : Port) : (s.setPort p).edCsumOk = s.edCsumOk := rfl
@[simp] theorem State.setPort_record (s : State) (p : Port) : (s.setPort p).record = s.record := rfl
@[simp] theorem State.setPort_port (s : State) (p : Port) : (s.setPort p).port = p := rfl
@[simp] theorem State.setPort_fresh (s : State) (p : Port) : (s.setPort p).fresh = s.fresh := rfl

@[simp] theorem State.setCmd_cmd (s : State) (c : BitVec 2) : (s.setCmd c).cmd = c := rfl
@[simp] theorem State.setCmd_cid (s : State) (c : BitVec 2) : (s.setCmd c).cid = s.cid := rfl
@[simp] theorem State.setCmd_val (s : State) (c : BitVec 2) : (s.setCmd c).val = s.val := rfl
@[simp] theorem State.setCmd_rxlen (s : State) (c : BitVec 2) : (s.setCmd c).rxlen = s.rxlen := rfl
@[simp] theorem State.setCmd_edlen (s : State) (c : BitVec 2) : (s.setCmd c).edlen = s.edlen := rfl
@[simp] theorem State.setCmd_txbuf (s : State) (c : BitVec 2) : (s.setCmd c).txbuf = s.txbuf := rfl
@[simp] theorem State.setCmd_rxbuf (s : State) (c : BitVec 2) : (s.setCmd c).rxbuf = s.rxbuf := rfl
@[simp] theorem State.setCmd_edbuf (s : State) (c : BitVec 2) : (s.setCmd c).edbuf = s.edbuf := rfl
@[simp] theorem State.setCmd_txlen (s : State) (c : BitVec 2) : (s.setCmd c).txlen = s.txlen := rfl
@[simp] theorem State.setCmd_rrValid (s : State) (c : BitVec 2) : (s.setCmd c).rrValid = s.rrValid := rfl
@[simp] theorem State.setCmd_rrFail (s : State) (c : BitVec 2) : (s.setCmd c).rrFail = s.rrFail := rfl
@[simp] theorem State.setCmd_rrMax (s : State) (c : BitVec 2) : (s.setCmd c).rrMax = s.rrMax := rfl
@[simp] theorem State.setCmd_rrCur (s : State) (c : BitVec 2) : (s.setCmd c).rrCur = s.rrCur := rfl
@[simp] theorem State.setCmd_edOk (s : State) (c : BitVec 2) : (s.setCmd c).edOk = s.edOk := rfl
@[simp] theorem State.setCmd_edErr (s : State) (c : BitVec 2) : (s.setCmd c).edErr = s.edErr := rfl
@[simp] theorem State.setCmd_edCsumOk (s : State) (c : BitVec 2) : (s.setCmd c).edCsumOk = s.edCsumOk := rfl
@[simp] theorem State.setCmd_record (s : State) (c : BitVec 2) : (s.setCmd c).record = s.record := rfl
@[simp] theorem State.setCmd_port (s : State) (c : BitVec 2) : (s.setCmd c).port = s.port := rfl
@[simp] theorem State.setCmd_fresh (s : State) (c : BitVec 2) : (s.setCmd c).fresh = s.fresh := rfl

@[simp] theorem State.setCid_cmd (s : State) (c : Byte) : (s.setCid c).cmd = s.cmd := rfl
@[simp] theorem State.setCid_cid (s : State) (c : Byte) : (s.setCid c).cid = c := rfl
@[simp] theorem State.setCid_val (s : State) (c : Byte) : (s.setCid c).val = s.val := rfl
@[simp] theorem State.setCid_rxlen (s : State) (c : Byte) : (s.setCid c).rxlen = s.rxlen := rfl
@[simp] theorem State.setCid_edlen (s : State) (c : Byte) : (s.setCid c).edlen = s.edlen := rfl
@[simp] theorem State.setCid_txbuf (s : State) (c : Byte) : (s.setCid c).txbuf = s.txbuf := rfl
@[simp] theorem State.setCid_rxbuf (s : State) (c : Byte) : (s.setCid c).rxbuf = s.rxbuf := rfl
@[simp] theorem State.setCid_edbuf (s : State) (c : Byte) : (s.setCid c).edbuf = s.edbuf := rfl
@[simp] theorem State.setCid_txlen (s : State) (c : Byte) : (s.setCid c).txlen = s.txlen := rfl
@[simp] theorem State.setCid_rrValid (s : State) (c : Byte) : (s.setCid c).rrValid = s.rrValid := rfl
@[simp] theorem State.setCid_rrFail (s : State) (c : Byte) : (s.setCid c).rrFail = s.rrFail := rfl
@[simp] theorem State.setCid_rrMax (s : State) (c : Byte) : (s.setCid c).rrMax = s.rrMax := rfl
@[simp] theorem State.setCid_rrCur (s : State) (c : Byte) : (s.setCid c).rrCur = s.rrCur := rfl
@[simp] theorem State.setCid_edOk (s : State) (c : Byte) : (s.setCid c).edOk = s.edOk := rfl
@[simp] theorem State.setCid_edErr (s : State) (c : Byte) : (s.setCid c).edErr = s.edErr := rfl
@[simp] theorem State.setCid_edCsumOk (s : State) (c : Byte) : (s.setCid c).edCsumOk = s.edCsumOk := rfl
@[simp] theorem State.setCid_record (s : State) (c : Byte) : (s.setCid c).record = s.record := rfl
@[simp] theorem State.setCid_port (s : State) (c : Byte) : (s.setCid c).port = s.port := rfl
@[simp] theorem State.setCid_fresh (s : State) (c : Byte) : (s.setCid c).fresh = s.fresh := rfl

@[simp] theorem State.setVal_cmd (s : State) (v : BitVec Config.vw) : (s.setVal v).cmd = s.cmd := rfl
@[simp] theorem State.setVal_cid (s : State) (v : BitVec Config.vw) : (s.setVal v).cid = s.cid := rfl
@[simp] theorem State.setVal_val (s : State) (v : BitVec Config.vw) : (s.setVal v).val = v := rfl
@[simp] theorem State.setVal_rxlen (s : State) (v : BitVec Config.vw) : (s.setVal v).rxlen = s.rxlen := rfl
@[simp] theorem State.setVal_edlen (s : State) (v : BitVec Config.vw) : (s.setVal v).edlen = s.edlen := rfl
@[simp] theorem State.setVal_txbuf (s : State) (v : BitVec Config.vw) : (s.setVal v).txbuf = s.txbuf := rfl
@[simp] theorem State.setVal_rxbuf (s : State) (v : BitVec Config.vw) : (s.setVal v).rxbuf = s.rxbuf := rfl
@[simp] theorem State.setVal_edbuf (s : State) (v : BitVec Config.vw) : (s.setVal v).edbuf = s.edbuf := rfl
@[simp] theorem State.setVal_txlen (s : State) (v : BitVec Config.vw) : (s.setVal v).txlen = s.txlen := rfl
@[simp] theorem State.setVal_rrValid (s : State) (v : BitVec Config.vw) : (s.setVal v).rrValid = s.rrValid := rfl
@[simp] theorem State.setVal_rrFail (s : State) (v : BitVec Config.vw) : (s.setVal v).rrFail = s.rrFail := rfl
@[simp] theorem State.setVal_rrMax (s : State) (v : BitVec Config.vw) : (s.setVal v).rrMax = s.rrMax := rfl
@[simp] theorem State.setVal_rrCur (s : State) (v : BitVec Config.vw) : (s.setVal v).rrCur = s.rrCur := rfl
@[simp] theorem State.setVal_edOk (s : State) (v : BitVec Config.vw) : (s.setVal v).edOk = s.edOk := rfl
@[simp] theorem State.setVal_edErr (s : State) (v : BitVec Config.vw) : (s.setVal v).edErr = s.edErr := rfl
@[simp] theorem State.setVal_edCsumOk (s : State) (v : BitVec Config.vw) : (s.setVal v).edCsumOk = s.edCsumOk := rfl
@[simp] theorem State.setVal_record (s : State) (v : BitVec Config.vw) : (s.setVal v).record = s.record := rfl
@[simp] theorem State.setVal_port (s : State) (v : BitVec Config.vw) : (s.setVal v).port = s.port := rfl
@[simp] theorem State.setVal_fresh (s : State) (v : BitVec Config.vw) : (s.setVal v).fresh = s.fresh := rfl

@[simp] theorem State.setRx_cmd (s : State) (len : BitVec 8) (buf : Memory) : (s.setRx len buf).cmd = s.cmd := rfl
@[simp] theorem State.setRx_cid (s : State) (len : BitVec 8) (buf : Memory) : (s.setRx len buf).cid = s.cid := rfl
@[simp] theorem State.setRx_val (s : State) (len : BitVec 8) (buf : Memory) : (s.setRx len buf).val = s.val := rfl
@[simp] theorem State.setRx_rxlen (s : State) (len : BitVec 8) (buf : Memory) : (s.setRx len buf).rxlen = len := rfl
@[simp] theorem State.setRx_edlen (s : State) (len : BitVec 8) (buf : Memory) : (s.setRx len buf).edlen = s.edlen := rfl
@[simp] theorem State.setRx_txbuf (s : State) (len : BitVec 8) (buf : Memory) : (s.setRx len buf).txbuf = s.txbuf := rfl
@[simp] theorem State.setRx_rxbuf (s : State) (len : BitVec 8) (buf : Memory) : (s.setRx len buf).rxbuf = buf := rfl
@[simp] theorem State.setRx_edbuf (s : State) (len : BitVec 8) (buf : Memory) : (s.setRx len buf).edbuf = s.edbuf := rfl
@[simp] theorem State.setRx_txlen (s : State) (len : BitVec 8) (buf : Memory) : (s.setRx len buf).txlen = s.txlen := rfl
@[simp] theorem State.setRx_rrValid (s : State) (len : BitVec 8) (buf : Memory) : (s.setRx len buf).rrValid = s.rrValid := rfl
@[simp] theorem State.setRx_rrFail (s : State) (len : BitVec 8) (buf : Memory) : (s.setRx len buf).rrFail = s.rrFail := rfl
@[simp] theorem State.setRx_rrMax (s : State) (len : BitVec 8) (buf : Memory) : (s.setRx len buf).rrMax = s.rrMax := rfl
@[simp] theorem State.setRx_rrCur (s : State) (len : BitVec 8) (buf : Memory) : (s.setRx len buf).rrCur = s.rrCur := rfl
@[simp] theorem State.setRx_edOk (s : State) (len : BitVec 8) (buf : Memory) : (s.setRx len buf).edOk = s.edOk := rfl
@[simp] theorem State.setRx_edErr (s : State) (len : BitVec 8) (buf : Memory) : (s.setRx len buf).edErr = s.edErr := rfl
@[simp] theorem State.setRx_edCsumOk (s : State) (len : BitVec 8) (buf : Memory) : (s.setRx len buf).edCsumOk = s.edCsumOk := rfl
@[simp] theorem State.setRx_record (s : State) (len : BitVec 8) (buf : Memory) : (s.setRx len buf).record = s.record := rfl
@[simp] theorem State.setRx_port (s : State) (len : BitVec 8) (buf : Memory) : (s.setRx len buf).port = s.port := rfl
@[simp] theorem State.setRx_fresh (s : State) (len : BitVec 8) (buf : Memory) : (s.setRx len buf).fresh = s.fresh := rfl

@[simp] theorem State.setEdIn_cmd (s : State) (len : BitVec 8) (buf : Memory) : (s.setEdIn len buf).cmd = s.cmd := rfl
@[simp] theorem State.setEdIn_cid (s : State) (len : BitVec 8) (buf : Memory) : (s.setEdIn len buf).cid = s.cid := rfl
@[simp] theorem State.setEdIn_val (s : State) (len : BitVec 8) (buf : Memory) : (s.setEdIn len buf).val = s.val := rfl
@[simp] theorem State.setEdIn_rxlen (s : State) (len : BitVec 8) (buf : Memory) : (s.setEdIn len buf).rxlen = s.rxlen := rfl
@[simp] theorem State.setEdIn_edlen (s : State) (len : BitVec 8) (buf : Memory) : (s.setEdIn len buf).edlen = len := rfl
@[simp] theorem State.setEdIn_txbuf (s : State) (len : BitVec 8) (buf : Memory) : (s.setEdIn len buf).txbuf = s.txbuf := rfl
@[simp] theorem State.setEdIn_rxbuf (s : State) (len : BitVec 8) (buf : Memory) : (s.setEdIn len buf).rxbuf = s.rxbuf := rfl
@[simp] theorem State.setEdIn_edbuf (s : State) (len : BitVec 8) (buf : Memory) : (s.setEdIn len buf).edbuf = buf := rfl
@[simp] theorem State.setEdIn_txlen (s : State) (len : BitVec 8) (buf : Memory) : (s.setEdIn len buf).txlen = s.txlen := rfl
@[simp] theorem State.setEdIn_rrValid (s : State) (len : BitVec 8) (buf : Memory) : (s.setEdIn len buf).rrValid = s.rrValid := rfl
@[simp] theorem State.setEdIn_rrFail (s : State) (len : BitVec 8) (buf : Memory) : (s.setEdIn len buf).rrFail = s.rrFail := rfl
@[simp] theorem State.setEdIn_rrMax (s : State) (len : BitVec 8) (buf : Memory) : (s.setEdIn len buf).rrMax = s.rrMax := rfl
@[simp] theorem State.setEdIn_rrCur (s : State) (len : BitVec 8) (buf : Memory) : (s.setEdIn len buf).rrCur = s.rrCur := rfl
@[simp] theorem State.setEdIn_edOk (s : State) (len : BitVec 8) (buf : Memory) : (s.setEdIn len buf).edOk = s.edOk := rfl
@[simp] theorem State.setEdIn_edErr (s : State) (len : BitVec 8) (buf : Memory) : (s.setEdIn len buf).edErr = s.edErr := rfl
@[simp] theorem State.setEdIn_edCsumOk (s : State) (len : BitVec 8) (buf : Memory) : (s.setEdIn len buf).edCsumOk = s.edCsumOk := rfl
@[simp] theorem State.setEdIn_record (s : State) (len : BitVec 8) (buf : Memory) : (s.setEdIn len buf).record = s.record := rfl
@[simp] theorem State.setEdIn_port (s : State) (len : BitVec 8) (buf : Memory) : (s.setEdIn len buf).port = s.port := rfl
@[simp] theorem State.setEdIn_fresh (s : State) (len : BitVec 8) (buf : Memory) : (s.setEdIn len buf).fresh = s.fresh := rfl

end Sys2Proof.Machine
end

