-- ==== Sys2Proof/Laws/Memory.lean ====
section
/-! SUPPORT. The laws of a buffer: a read after a write, and that every write keeps the canonical form. -/

namespace Sys2Proof.Machine

/-- Reading the cell just written gives the byte written. -/
@[simp] theorem Memory.read_write_same (m : Memory) (i : Nat) (v : Byte) :
    Memory.read (Memory.write m i v) i = some v := by
  induction m with
  | nil => simp [Memory.write, Memory.read]
  | cons c t ih =>
    obtain ⟨a, b⟩ := c
    unfold Memory.write
    split
    · simp [Memory.read]
    · split
      · simp [Memory.read]
      · rename_i h
        simp [Memory.read, Ne.symm h, ih]

/-- A write leaves every other cell alone. -/
theorem Memory.read_write_other (m : Memory) {i j : Nat} (v : Byte) (h : j ≠ i) :
    Memory.read (Memory.write m i v) j = Memory.read m j := by
  induction m with
  | nil => simp [Memory.write, Memory.read, Ne.symm h]
  | cons c t ih =>
    obtain ⟨a, b⟩ := c
    unfold Memory.write
    split
    · simp [Memory.read, Ne.symm h]
    · split
      · rename_i h2
        subst h2
        simp [Memory.read, Ne.symm h]
      · simp [Memory.read, ih]

/-- A range write leaves every cell below it alone. -/
theorem Memory.read_writeRange_below (bs : List Byte) : ∀ (m : Memory) {i j : Nat}, j < i →
    Memory.read (Memory.writeRange m i bs) j = Memory.read m j := by
  induction bs with
  | nil => intro m i j _; rfl
  | cons b bs ih =>
    intro m i j h
    rw [Memory.writeRange, ih _ (by omega), Memory.read_write_other _ _ (by omega)]

/-- A range write leaves every cell past it alone. -/
theorem Memory.read_writeRange_above (bs : List Byte) : ∀ (m : Memory) {i j : Nat}, i + bs.length ≤ j →
    Memory.read (Memory.writeRange m i bs) j = Memory.read m j := by
  induction bs with
  | nil => intro m i j _; rfl
  | cons b bs ih =>
    intro m i j h
    rw [List.length_cons] at h
    rw [Memory.writeRange, ih _ (by omega), Memory.read_write_other _ _ (by omega)]

/-- Inside a range write, cell i + j holds byte j. -/
theorem Memory.read_writeRange_inside (bs : List Byte) : ∀ (m : Memory) (i j : Nat), j < bs.length →
    Memory.read (Memory.writeRange m i bs) (i + j) = bs[j]? := by
  induction bs with
  | nil => intro m i j h; simp at h
  | cons b bs ih =>
    intro m i j h
    cases j with
    | zero => simp [Memory.writeRange, Memory.read_writeRange_below bs _ (Nat.lt_succ_self i)]
    | succ j =>
      rw [Memory.writeRange, show i + (j + 1) = i + 1 + j by omega, ih _ _ _ (by simpa using h)]
      rfl

/-- The head of a written list is the written cell or the old head. -/
theorem Memory.write_cons_shape (a : Nat) (b : Byte) (t : Memory) (i : Nat) (v : Byte) :
    Memory.write ((a, b) :: t) i v =
      if i < a then (i, v) :: (a, b) :: t else if i = a then (i, v) :: t else (a, b) :: Memory.write t i v := rfl

/-- Every write keeps the indices strictly rising. -/
theorem Memory.rising_write (m : Memory) (i : Nat) (v : Byte) (h : Memory.rising m = true) :
    Memory.rising (Memory.write m i v) = true := by
  induction m with
  | nil => rfl
  | cons c t ih =>
    obtain ⟨a, b⟩ := c
    rw [Memory.write_cons_shape]
    split
    · simp_all [Memory.rising]
    · split
      · rename_i h2
        subst h2
        cases t with
        | nil => rfl
        | cons d u => simpa [Memory.rising] using h
      · cases t with
        | nil =>
          rename_i h1 h2
          have : a < i := by omega
          simp [Memory.write, Memory.rising, this]
        | cons d u =>
          obtain ⟨e, f⟩ := d
          have hu : Memory.rising ((e, f) :: u) = true := by simp [Memory.rising] at h; exact h.2
          have ha : a < e := by simp [Memory.rising] at h; exact h.1
          have := ih hu
          rw [Memory.write_cons_shape] at this ⊢
          split <;> rename_i h3
          · rw [if_pos h3] at this
            simp only [Memory.rising, Bool.and_eq_true, decide_eq_true_eq] at this ⊢
            exact ⟨by omega, this⟩
          · rw [if_neg h3] at this
            split <;> rename_i h4
            · rw [if_pos h4] at this
              simp only [Memory.rising, Bool.and_eq_true, decide_eq_true_eq]
              exact ⟨by omega, this⟩
            · rw [if_neg h4] at this
              simp only [Memory.rising, Bool.and_eq_true, decide_eq_true_eq]
              exact ⟨ha, this⟩

/-- Every cell of a written list is the written one or an old one. -/
theorem Memory.mem_write (m : Memory) (i : Nat) (v : Byte) {c : Host.Cell} (h : c ∈ Memory.write m i v) :
    c = (i, v) ∨ c ∈ m := by
  induction m with
  | nil => simpa [Memory.write] using h
  | cons d t ih =>
    obtain ⟨a, b⟩ := d
    rw [Memory.write_cons_shape] at h
    split at h
    · simpa using h
    · split at h
      · rcases List.mem_cons.mp h with h | h
        · exact .inl h
        · exact .inr (List.mem_cons_of_mem _ h)
      · rcases List.mem_cons.mp h with h | h
        · exact .inr (h ▸ List.mem_cons_self)
        · rcases ih h with h | h
          · exact .inl h
          · exact .inr (List.mem_cons_of_mem _ h)

/-- A write inside the buffer keeps the canonical form. -/
theorem Memory.wf_write {n : Nat} {m : Memory} (i : Nat) (v : Byte) (h : Memory.wf n m = true) (hi : i < n) :
    Memory.wf n (Memory.write m i v) = true := by
  simp only [Memory.wf, Bool.and_eq_true, List.all_eq_true, decide_eq_true_eq] at h ⊢
  refine ⟨Memory.rising_write m i v h.1, fun c hc => ?_⟩
  rcases Memory.mem_write m i v hc with rfl | hc
  · exact hi
  · exact h.2 c hc

/-- A range write inside the buffer keeps the canonical form. -/
theorem Memory.wf_writeRange {n : Nat} (bs : List Byte) : ∀ {m : Memory} (i : Nat), Memory.wf n m = true →
    i + bs.length ≤ n → Memory.wf n (Memory.writeRange m i bs) = true := by
  induction bs with
  | nil => intro m i h _; exact h
  | cons b bs ih =>
    intro m i h hi
    rw [List.length_cons] at hi
    exact ih (i + 1) (Memory.wf_write i b h (by omega)) (by omega)

/-- The buffers of the reset state have the canonical form. -/
theorem Memory.wf_nil (n : Nat) : Memory.wf n [] = true := rfl

end Sys2Proof.Machine
end

