-- ==== Sys2Proof/Laws/Ops.lean ====
section
/-! SUPPORT. What each shared operation can do, said once: reading a cell, reading a range, and writing a result group. -/

namespace Sys2Proof.Machine

/-- A read answers a byte only from a cell of the buffer that holds it. -/
theorem readCell_ok_iff (n : Nat) (m : Memory) (i : Nat) (v : Byte) :
    readCell n m i = .ok v ↔ i < n ∧ Memory.read m i = some v := by
  unfold readCell
  split
  · split <;> simp_all
  · simp_all

/-- A read stops with noSuchCell exactly outside the buffer. -/
theorem readCell_noSuchCell_iff (n : Nat) (m : Memory) (i : Nat) :
    readCell n m i = .error .noSuchCell ↔ n ≤ i := by
  unfold readCell
  split
  · split <;> simp_all
  · simp_all

/-- A range read that answers answers one byte per cell. -/
theorem readCells_length (n : Nat) (m : Memory) : ∀ (k i : Nat) {bs : List Byte},
    readCells n m i k = .ok bs → bs.length = k := by
  intro k
  induction k with
  | zero => intro i bs h; simp [readCells] at h; simp [← h]
  | succ k ih =>
    intro i bs h
    rw [readCells] at h
    split at h
    · cases h
    · split at h
      · cases h
      · rename_i vs hvs
        cases h
        simp [ih _ hvs]

/-- A range read that answers, answers byte j from cell i + j. -/
theorem readCells_get (n : Nat) (m : Memory) : ∀ (k i j : Nat) {bs : List Byte},
    readCells n m i k = .ok bs → j < k → readCell n m (i + j) = .ok (byteAt bs j) := by
  intro k
  induction k with
  | zero => intro i j bs _ hj; omega
  | succ k ih =>
    intro i j bs h hj
    rw [readCells] at h
    split at h
    · cases h
    · rename_i v hv
      split at h
      · cases h
      · rename_i vs hvs
        cases h
        cases j with
        | zero => simpa [byteAt] using hv
        | succ j =>
          rw [show i + (j + 1) = i + 1 + j by omega, ih _ _ hvs (by omega)]
          rfl

/-- Cells that hold known bytes are read as those bytes. -/
theorem readCells_of_cells (n : Nat) (m : Memory) : ∀ (bs : List Byte) (i : Nat), i + bs.length ≤ n →
    (∀ j, j < bs.length → Memory.read m (i + j) = some (byteAt bs j)) → readCells n m i bs.length = .ok bs := by
  intro bs
  induction bs with
  | nil => intro _ _ _; rfl
  | cons v bs ih =>
    intro i hc hh
    have h0 := hh 0 (by simp)
    simp only [List.length_cons] at hc ⊢
    have h1 := ih (i + 1) (by omega) fun j hj => by
      have := hh (j + 1) (by simpa using hj)
      rw [show i + 1 + j = i + (j + 1) by omega, this]
      rfl
    rw [readCells, (readCell_ok_iff n m i v).mpr ⟨by omega, by simpa [byteAt] using h0⟩]
    simp [h1]

/-- A range read inside the buffer, of cells that hold values, answers. -/
theorem readCells_ok (n : Nat) (m : Memory) : ∀ (k i : Nat), i + k ≤ n →
    (∀ j, i ≤ j → j < i + k → (Memory.read m j).isSome = true) → ∃ bs, readCells n m i k = .ok bs := by
  intro k
  induction k with
  | zero => intro i _ _; exact ⟨[], rfl⟩
  | succ k ih =>
    intro i hc hh
    obtain ⟨v, hv⟩ := Option.isSome_iff_exists.mp (hh i (by omega) (by omega))
    obtain ⟨vs, hvs⟩ := ih (i + 1) (by omega) fun j h1 h2 => hh j (by omega) (by omega)
    refine ⟨v :: vs, ?_⟩
    rw [readCells, (readCell_ok_iff n m i v).mpr ⟨by omega, hv⟩]
    simp [hvs]

/-- memRead is readCell of the buffer. -/
theorem memRead_ok_iff (s : State) (b : Buffer) (i : Nat) (v : Byte) :
    memRead s b i = .ok v ↔ i < b.cells ∧ Memory.read (s.buf b) i = some v :=
  readCell_ok_iff _ _ _ _

/-- `emitW` writes group TX and nothing else. -/
theorem emitW_eq (frame : List Byte) (s : State) :
    emitW frame s = s.setTx 7 (Memory.writeRange s.txbuf 0 frame) := rfl

/-- `emitR` writes group TX, cells 5 and 6 with the free values, advances the counter, and nothing else. -/
theorem emitR_eq (frame : List Byte) (s : State) :
    emitR frame s = (s.setTx 5 (Memory.writeRange s.txbuf 0
      (frame ++ [Config.freeTx5 s.fresh, Config.freeTx6 s.fresh]))).bump := rfl

/-- `putReply` of an accepted reply writes group RR and nothing else. -/
@[simp] theorem putReply_valid (max cur : BitVec 16) (s : State) :
    putReply (.valid max cur) s = s.setRr true 0 max cur := rfl

/-- `putReply` of a failure writes group RR, the values free, advances the counter, and nothing else. -/
@[simp] theorem putReply_failed (f : ReplyFailure) (s : State) :
    putReply (.failed f) s =
      (s.setRr false (replyFailCode f) (Config.freeRrMax s.fresh) (Config.freeRrCur s.fresh)).bump := rfl

/-- `raiseReply` is `putReply` of the failure. -/
theorem raiseReply_eq (f : ReplyFailure) (s : State) : raiseReply f s = putReply (.failed f) s := rfl

/-- `raiseEdid` writes group ED, the record free, advances the counter, and nothing else. -/
theorem raiseEdid_eq (f : EdidFailure) (csum : Bool) (s : State) :
    raiseEdid f csum s = (s.setEd false (edidErrCode f) csum (Config.freeRecord s.fresh)).bump := rfl

/-- `acceptEdid` writes group ED and nothing else. -/
theorem acceptEdid_eq (csum : Bool) (r : Record) (s : State) : acceptEdid csum r s = s.setEd true 0 csum r := rfl

/-- `putDesc` writes one descriptor register and nothing else. -/
theorem putDesc_eq (k : Fin 4) (d : Desc) (s : State) :
    putDesc k d s = s.setRecord { s.record with desc := s.record.desc.set k.val d k.isLt } := rfl

end Sys2Proof.Machine
end

