-- ==== Sys2Proof/Laws/Setting.lean ====
section
/-! SUPPORT. The block at this hardware's setting is the machine; the bounds of RXCAP at every setting. -/

namespace Sys2Proof.Machine

/-- At this hardware's setting, with `VAL` as State holds it, execAt is exec. -/
theorem execAt_hardware (i : Instr) (s : State) : execAt Config.hardware s.val i s = exec i s := by
  cases i <;> rfl

/-- `10 + T <= RXCAP <= 130` at every setting (00_scope.md R7). -/
theorem setting_rxcap_bounds (p : Config.Setting) : 10 + p.typeByte.val ≤ p.rxcap ∧ p.rxcap ≤ 130 := by
  have := p.typeByte.isLt
  unfold Config.Setting.rxcap
  have := Nat.mod_lt p.spare (show 0 < 121 - p.typeByte.val by omega)
  omega

/-- Every capacity the range allows is one of some setting. -/
theorem setting_rxcap_onto (q : Config.Params) (w : Config.ValWidth) (n : Nat) (hl : 10 + q.typeByte.val ≤ n)
    (hu : n ≤ 130) : Config.Setting.rxcap ⟨q, w, n - (10 + q.typeByte.val)⟩ = n := by
  have := q.typeByte.isLt
  simp only [Config.Setting.rxcap]
  rw [Nat.mod_eq_of_lt (by omega)]
  omega

end Sys2Proof.Machine
end

