-- ==== Sys2Proof/Laws/Host.lean ====
section
/-! SUPPORT. The bounds of RXCAP, a range read of cells whose contents are known, and what the host's writes leave in a buffer;
the length byte and the two-byte fields as the numbers they stand for. -/

namespace Sys2Proof.Machine

/-- `10 + T <= RXCAP`, T = 0 (00_scope.md R7). -/
theorem rxcap_ge : 10 ≤ Config.rxcap := (setting_rxcap_bounds Config.hardware).1

/-- `RXCAP <= 130` (00_scope.md R7). -/
theorem rxcap_le : Config.rxcap ≤ 130 := (setting_rxcap_bounds Config.hardware).2

/-- Cell j of a buffer written from its start holds byte j. -/
theorem Memory.read_writeRange_byteAt (m : Memory) (bs : List Byte) {j : Nat} (h : j < bs.length) :
    Memory.read (Memory.writeRange m 0 bs) j = some (byteAt bs j) := by
  have := Memory.read_writeRange_inside bs m 0 j h
  rw [Nat.zero_add] at this
  simp [this, byteAt, List.getElem?_eq_getElem h]

/-- Bytes written from the start of a buffer that has room for them are read back. -/
theorem readRange_of_written (s : State) (b : Buffer) (m : Memory) (bs : List Byte) (hl : bs.length ≤ b.cells)
    (hm : s.buf b = Memory.writeRange m 0 bs) : readRange s b 0 bs.length = .ok bs :=
  readCells_of_cells b.cells (s.buf b) bs 0 (by omega) fun j hj => by
    rw [hm, Nat.zero_add, Memory.read_writeRange_byteAt m bs hj]

/-- After the host's copy of a reply that fits, the received reply is those bytes. -/
theorem hostWriteReply_is (bs : List Byte) (s : State) (h : bs.length ≤ Config.rxcap) :
    (hostWriteReply bs s).replyIs bs := by
  have := rxcap_le
  rw [hostWriteReply, List.take_of_length_le h]
  refine ⟨?_, h, fun i hi => by simp [Memory.read_writeRange_byteAt _ _ hi]⟩
  simp only [State.setRx_rxlen, BitVec.toNat_ofNat]
  omega

/-- After the host's copy of a 128-byte block, the identity block is those bytes. -/
theorem hostWriteBlock_is (bs : List Byte) (s : State) (h : bs.length = 128) : (hostWriteBlock bs s).blockIs bs := by
  rw [hostWriteBlock, List.take_of_length_le (by rw [h]; exact Nat.le_refl _)]
  exact ⟨by simp [h], h, fun i hi => by simp [Memory.read_writeRange_byteAt _ _ (h.symm ▸ hi)]⟩

/-- The length byte of a reply is compared as a whole (30_encoding.md R72). -/
theorem eq_lenByte_iff (b : Byte) {n : Nat} (h : n ≤ 127) : b = lenByte n ↔ b.toNat = 128 + n := by
  have all : ∀ m : Fin 128, (lenByte m.val).toNat = 128 + m.val := by decide
  rw [← all ⟨n, by omega⟩]
  exact BitVec.toNat_inj.symm

/-- The count field of a length byte, and its flag. -/
theorem bits_lenByte (c : BitVec 7) : bits (lenByte c.toNat) 0 7 = c ∧ bit (lenByte c.toNat) 7 = true := by
  revert c
  decide

/-- A byte with the flag is the length byte of its count field. -/
theorem lenByte_bits (b : Byte) (h : bit b 7 = true) : lenByte (bits b 0 7).toNat = b := by
  revert h
  revert b
  decide

/-- A two-byte field is its two bytes, the high one first. -/
theorem be16_eq_append (hi lo : Byte) : be16 hi lo = hi ++ lo := by
  rw [be16, BitVec.append_def, BitVec.shiftLeftZeroExtend_eq, BitVec.setWidth'_eq]

end Sys2Proof.Machine
end

