-- ==== Sys2Proof/Laws/PerInstr.lean ====
section
/-! SUPPORT. A statement about the syntax of every instruction, one lemma per constructor: a well-formed instruction's encoding
has the length of its row (30_encoding.md R70, R74 to R77, R85). -/

namespace Sys2Proof.Laws.EncodedForm

/-- A well-formed instruction is encoded in as many bytes as its row has. -/
def Statement (i : Instr) : Prop := i.wellFormed = true → (encode i).2.length = encodedLength i

theorem encw : Statement .encw := fun _ => rfl
theorem encr : Statement .encr := fun _ => rfl
theorem decr : Statement .decr := fun _ => rfl
theorem edid : Statement .edid := fun _ => rfl
theorem frameW (cid vh vl chk : Byte) : Statement (.frameW cid vh vl chk) := fun _ => rfl
theorem frameR (cid chk : Byte) : Statement (.frameR cid chk) := fun _ => rfl
theorem frameP (rsrc : Byte) (count : BitVec 7) (ropc echo : Byte) (typ : Option Byte) (mh ml sh sl : Byte)
    (extra : List Byte) (chk : Byte) : Statement (.frameP rsrc count ropc echo typ mh ml sh sl extra chk) := by
  intro h
  simp only [Instr.wellFormed, Instr.wellFormedAt, Bool.and_eq_true, beq_iff_eq] at h
  exact h.1.2
theorem slotUnusedZero (k : Fin 4) : Statement (.slotUnusedZero k) := fun _ => rfl
theorem slotUnusedOnes (k : Fin 4) : Statement (.slotUnusedOnes k) := fun _ => rfl
theorem slotTextSerial (k : Fin 4) (body : List Byte) : Statement (.slotTextSerial k body) := by
  intro h
  simp_all [Instr.wellFormed, Instr.wellFormedAt, encode, encodedLength]
theorem slotTextComment (k : Fin 4) (body : List Byte) : Statement (.slotTextComment k body) := by
  intro h
  simp_all [Instr.wellFormed, Instr.wellFormedAt, encode, encodedLength]
theorem slotRange (k : Fin 4) (body : List Byte) : Statement (.slotRange k body) := by
  intro h
  simp_all [Instr.wellFormed, Instr.wellFormedAt, encode, encodedLength]
theorem slotTextName (k : Fin 4) (body : List Byte) : Statement (.slotTextName k body) := by
  intro h
  simp_all [Instr.wellFormed, Instr.wellFormedAt, encode, encodedLength]
theorem slotWhite (k : Fin 4) (body : List Byte) : Statement (.slotWhite k body) := by
  intro h
  simp_all [Instr.wellFormed, Instr.wellFormedAt, encode, encodedLength]
theorem slotUnusedOther (k : Fin 4) (body : List Byte) : Statement (.slotUnusedOther k body) := by
  intro h
  simp only [Instr.wellFormed, Instr.wellFormedAt, Bool.and_eq_true, beq_iff_eq] at h
  simp [encode, encodedLength, h.1.1]
theorem slotDtd (k : Fin 4) (body : List Byte) : Statement (.slotDtd k body) := by
  intro h
  simp only [Instr.wellFormed, Instr.wellFormedAt, Bool.and_eq_true, beq_iff_eq] at h
  exact h.1.1

end Sys2Proof.Laws.EncodedForm
end

