-- ==== Sys2Proof/Tests/Slice0.lean ====
section
/-! SUPPORT. Tests: the decoding of a word of every row, written from the patterns of spec/opcode_table.json; an ill-formed term
for every check; one step of each row against the vectors of 95_test_vectors.md; for every statement with hypotheses, a
witness that meets them. -/

namespace Sys2Proof.Tests

open Sys2Proof.Machine

/-! ### Small states and what is looked at in an outcome -/

/-- `EDID_HEADER` (00_scope.md R7). -/
def header : List Byte := [0x00, 0xFF, 0xFF, 0xFF, 0xFF, 0xFF, 0xFF, 0x00]

/-- Bytes 8 to 53 of block S (95_test_vectors.md section 3.1). -/
def sampleFixed : List Byte :=
  [0x09, 0xB4, 0x34, 0x12, 0xEF, 0xCD, 0xAB, 0x89, 0x0A, 0x19, 0x01, 0x03, 0x80, 0x34, 0x20, 0x78, 0xEA, 0xEE, 0x91] ++
  [0xA3, 0x54, 0x4C, 0x99, 0x26, 0x0F, 0x50, 0x54, 0x21, 0x08, 0x00, 0xD1, 0x00, 0x81, 0x80, 0x61, 0x40] ++
  [0x01, 0x01, 0x01, 0x01, 0x01, 0x01, 0x01, 0x01, 0x01, 0x01]

/-- Slot 0 of block S. -/
def slotDtdS : List Byte :=
  [0x28, 0x3C, 0x80, 0xA0, 0x70, 0xB0, 0x23, 0x40, 0x30, 0x20, 0x36, 0x00, 0x06, 0x44, 0x21, 0x00, 0x00, 0x1A]

/-- Slot 1 of block S, from byte 4 on. -/
def rangeBodyS : List Byte := [0x00, 0x38, 0x4C, 0x1E, 0x53, 0x11, 0x00, 0x0A, 0x20, 0x20, 0x20, 0x20, 0x20, 0x20]

/-- Slot 2 of block S, from byte 4 on. -/
def nameBodyS : List Byte := [0x00, 0x42, 0x4D, 0x20, 0x54, 0x45, 0x53, 0x54, 0x0A, 0x20, 0x20, 0x20, 0x20, 0x20]

/-- Block S without its last byte. -/
def sampleHead : List Byte :=
  header ++ sampleFixed ++ slotDtdS ++ ([0x00, 0x00, 0x00, 0xFD] ++ rangeBodyS) ++
    ([0x00, 0x00, 0x00, 0xFC] ++ nameBodyS) ++ ([0x00, 0x00, 0x00, 0x10] ++ List.replicate 15 0x00)

/-- Block S (95_test_vectors.md section 3.1). -/
def sampleBlock : List Byte := sampleHead ++ [0x58]

/-- The reply of 95_test_vectors.md section 1.2, vector 1. -/
def goodReply : List Byte := [0x6E, 0x87, 0x02, 0x00, 0x10, 0x00, 0x64, 0x00, 0x32, 0xC3]

/-- The reply of 95_test_vectors.md section 1.2, vector 5: seed 0x50 and a type byte. -/
def typedReply : List Byte := [0x6E, 0x88, 0x02, 0x00, 0x10, 0x00, 0x00, 0x64, 0x00, 0x32, 0xF2]

/-- A block for a display of the published standard: seed 0x50, a type byte, `VW` = 16, 130 cells. -/
def standard : Config.Setting := ⟨⟨0x50, 1⟩, .w16, 119⟩

/-- The reset state with a control id, a reply and its length written by the host. -/
def withReply (c : Byte) (r : List Byte) : State :=
  (State.reset.setCid c).setRx (BitVec.ofNat 8 r.length) (Memory.writeRange [] 0 r)

/-- The reset state with a block and its length written by the host. -/
def withBlock (e : List Byte) : State :=
  State.reset.setEdIn (BitVec.ofNat 8 e.length) (Memory.writeRange [] 0 e)

/-- What an outcome's next state shows of it, if it is one. -/
def see {α : Type} (f : State → α) (o : Host.Outcome State Fault Refusal) : Option α :=
  match o with
  | .next t => some (f t)
  | .fault _ => none
  | .refused _ => none

/-- The status of result group RR. -/
def rrStatus (t : State) : Bool × BitVec 3 := (t.rrValid, t.rrFail)

/-- The status of result group ED. -/
def edStatus (t : State) : Bool × BitVec 2 × Bool := (t.edOk, t.edErr, t.edCsumOk)

/-- The frame in `TXBUF`, as far as `TXLEN` goes. -/
def frame (t : State) : List (Option Byte) := (List.range t.txlen.toNat).map (Memory.read t.txbuf)

/-- A reply of at most ten bytes fits whatever `RXCAP` is. -/
theorem withReply_is (c : Byte) (r : List Byte) (h : r.length ≤ 10) : (withReply c r).replyIs r := by
  have := rxcap_ge
  refine ⟨?_, by omega, fun i hi => by simp [withReply, Memory.read_writeRange_byteAt _ _ hi]⟩
  simp only [withReply, State.setRx_rxlen, BitVec.toNat_ofNat]
  omega

/-- The block a test writes is the block the command reads. -/
theorem withBlock_is (e : List Byte) (h : e.length = 128) : (withBlock e).blockIs e :=
  ⟨by simp [withBlock, h], h, fun i hi => by simp [withBlock, Memory.read_writeRange_byteAt _ _ (h.symm ▸ hi)]⟩

/-- `EDID` on such a block. -/
theorem edid_withBlock (e : List Byte) (h : e.length = 128) :
    exec .edid (withBlock e) = .next (decodeEdid e (withBlock e)) := by
  have hl : (withBlock e).edlen.toNat = 128 := (withBlock_is e h).1
  have hr := readRange_of_written (withBlock e) .ed [] e (Nat.le_of_eq h) rfl
  rw [h] at hr
  simp only [exec, execEdid, hl, Config.edidLen, hr]
  simp

/-- Block S has 128 bytes. -/
theorem sampleBlock_length : sampleBlock.length = 128 := by decide +kernel

/-- Block S begins with the signature. -/
theorem sampleBlock_header : sampleBlock.take 8 = Config.edidHeader := by decide +kernel

/-! ### Decoding: one word of every row -/

theorem test_decode_encw : decode .command [0b00] = .ok .encw := by decide
theorem test_decode_encr : decode .command [0b01] = .ok .encr := by decide
theorem test_decode_decr : decode .command [0b10] = .ok .decr := by decide
theorem test_decode_edid : decode .command [0b11] = .ok .edid := by decide
theorem test_decode_frameW :
    decode .request [0x51, 0x84, 0x03, 0x10, 0x01, 0x23, 0x8A] = .ok (.frameW 0x10 0x01 0x23 0x8A) := by decide
theorem test_decode_frameR : decode .request [0x51, 0x82, 0x01, 0x10, 0xAC] = .ok (.frameR 0x10 0xAC) := by decide
theorem test_decode_frameP : decode .reply [0x6E, 0x89, 0x02, 0x00, 0x10, 0x01, 0x64, 0x03, 0x32, 0xAA, 0xBB, 0xDE] =
    .ok (.frameP 0x6E 9 0x02 0x10 none 0x01 0x64 0x03 0x32 [0xAA, 0xBB] 0xDE) := by decide
theorem test_decode_slotUnusedZero : decode (.slot 0) (List.replicate 18 0x00) = .ok (.slotUnusedZero 0) := by decide
theorem test_decode_slotUnusedOnes : decode (.slot 1) (List.replicate 18 0xFF) = .ok (.slotUnusedOnes 1) := by decide
theorem test_decode_slotTextSerial : decode (.slot 2) [0x00, 0x00, 0x00, 0xFF, 0x00, 0x31, 0x32, 0x33, 0x0A, 0x20, 0x20, 0x20,
    0x20, 0x20, 0x20, 0x20, 0x20, 0x20] = .ok (.slotTextSerial 2 [0x00, 0x31, 0x32, 0x33, 0x0A, 0x20, 0x20, 0x20, 0x20,
    0x20, 0x20, 0x20, 0x20, 0x20]) := by decide
theorem test_decode_slotTextComment : decode (.slot 3) ([0x00, 0x00, 0x00, 0xFE, 0x00, 0x0A] ++ List.replicate 12 0x20) =
    .ok (.slotTextComment 3 ([0x00, 0x0A] ++ List.replicate 12 0x20)) := by decide
theorem test_decode_slotRange : decode (.slot 0) [0x00, 0x00, 0x00, 0xFD, 0x00, 0x38, 0x4C, 0x1E, 0x53, 0x11, 0x00, 0x0A,
    0x20, 0x20, 0x20, 0x20, 0x20, 0x20] = .ok (.slotRange 0 rangeBodyS) := by decide
theorem test_decode_slotTextName : decode (.slot 1) [0x00, 0x00, 0x00, 0xFC, 0x00, 0x42, 0x4D, 0x20, 0x54, 0x45, 0x53, 0x54,
    0x0A, 0x20, 0x20, 0x20, 0x20, 0x20] = .ok (.slotTextName 1 nameBodyS) := by decide
theorem test_decode_slotWhite : decode (.slot 2) [0x00, 0x00, 0x00, 0xFB, 0x00, 0x01, 0x05, 0x4E, 0x52, 0x78, 0x00, 0x00, 0x00,
    0x00, 0x00, 0x0A, 0x20, 0x20] = .ok (.slotWhite 2 [0x00, 0x01, 0x05, 0x4E, 0x52, 0x78, 0x00, 0x00, 0x00, 0x00, 0x00,
    0x0A, 0x20, 0x20]) := by decide
/-- Section 3.4, row 11: the guard byte is not zero. -/
theorem test_decode_slotUnusedOther_guard :
    decode (.slot 3) ([0x00, 0x00, 0x01, 0xFC, 0x00] ++ List.replicate 13 0x41) =
      .ok (.slotUnusedOther 3 ([0x01, 0xFC, 0x00] ++ List.replicate 13 0x41)) := by decide
/-- Section 3.4, row 17: the tag is none of the five. -/
theorem test_decode_slotUnusedOther_tag : decode (.slot 3) ([0x00, 0x00, 0x00, 0x10] ++ List.replicate 14 0x00) =
    .ok (.slotUnusedOther 3 ([0x00, 0x10] ++ List.replicate 14 0x00)) := by decide
theorem test_decode_slotDtd : decode (.slot 0) slotDtdS = .ok (.slotDtd 0 slotDtdS) := by decide
/-- Section 3.4, row 3: 17 bytes 0xFF and 0xFE are a timing. -/
theorem test_decode_slotDtd_almost_ones : decode (.slot 0) (List.replicate 17 0xFF ++ [0xFE]) =
    .ok (.slotDtd 0 (List.replicate 17 0xFF ++ [0xFE])) := by decide

/-! What is no encoding is rejected by name. -/

theorem test_reject_command : decode .command [0x04] = .error .notACommand := by decide
theorem test_reject_request_opcode :
    decode .request [0x51, 0x84, 0x01, 0x10, 0x00, 0x32, 0x98] = .error .notARequestFrame := by decide
theorem test_reject_request_source : decode .request [0x50, 0x82, 0x01, 0x10, 0xAC] = .error .notARequestFrame := by decide
theorem test_reject_reply_flag :
    decode .reply [0x6E, 0x07, 0x02, 0x00, 0x10, 0x00, 0x64, 0x00, 0x32, 0x43] = .error .notAReplyFrame := by decide
theorem test_reject_reply_declined :
    decode .reply [0x6E, 0x87, 0x02, 0x01, 0x10, 0x00, 0x64, 0x00, 0x32, 0xC2] = .error .notAReplyFrame := by decide
theorem test_reject_reply_short :
    decode .reply [0x6E, 0x86, 0x02, 0x00, 0x10, 0x00, 0x64, 0x00, 0xF0] = .error .notAReplyFrame := by decide
theorem test_reject_slot : decode (.slot 0) (List.replicate 17 0x00) = .error .notASlot := by decide

/-! ### Every check of wellFormed refuses an ill-formed term -/

theorem test_wf_frameW_checksum : Instr.wellFormed (.frameW 0x10 0x00 0x32 0x9B) = false := by decide
theorem test_wf_frameR_checksum : Instr.wellFormed (.frameR 0x10 0xAD) = false := by decide
theorem test_wf_frameP_type :
    Instr.wellFormed (.frameP 0x6E 8 0x02 0x10 (some 0x00) 0x00 0x64 0x00 0x32 [] 0xCC) = false := by decide
theorem test_wf_frameP_length :
    Instr.wellFormed (.frameP 0x6E 8 0x02 0x10 none 0x00 0x64 0x00 0x32 [] 0xCC) = false := by decide
theorem test_wf_frameP_checksum :
    Instr.wellFormed (.frameP 0x6E 7 0x02 0x10 none 0x00 0x64 0x00 0x32 [] 0xFD) = false := by decide
theorem test_wf_slotTextSerial : Instr.wellFormed (.slotTextSerial 0 (List.replicate 13 0x20)) = false := by decide
theorem test_wf_slotTextComment : Instr.wellFormed (.slotTextComment 0 (List.replicate 15 0x20)) = false := by decide
theorem test_wf_slotRange : Instr.wellFormed (.slotRange 0 []) = false := by decide
theorem test_wf_slotTextName : Instr.wellFormed (.slotTextName 0 (List.replicate 13 0x20)) = false := by decide
theorem test_wf_slotWhite : Instr.wellFormed (.slotWhite 0 (List.replicate 15 0x20)) = false := by decide
theorem test_wf_slotUnusedOther_length : Instr.wellFormed (.slotUnusedOther 0 [0x00, 0x10]) = false := by decide
theorem test_wf_slotUnusedOther_zero :
    Instr.wellFormed (.slotUnusedOther 0 (List.replicate 16 0x00)) = false := by decide
theorem test_wf_slotUnusedOther_tag :
    Instr.wellFormed (.slotUnusedOther 0 ([0x00, 0xFB] ++ List.replicate 14 0x00)) = false := by decide
theorem test_wf_slotDtd_length : Instr.wellFormed (.slotDtd 0 (List.replicate 17 0x01)) = false := by decide
theorem test_wf_slotDtd_clock :
    Instr.wellFormed (.slotDtd 0 ([0x00, 0x00] ++ List.replicate 16 0x01)) = false := by decide
theorem test_wf_slotDtd_ones : Instr.wellFormed (.slotDtd 0 (List.replicate 18 0xFF)) = false := by decide

/-! ### One step of each row -/

/-- Section 2.2. -/
theorem test_encw : see frame (exec .encw ((State.reset.setCid 0x10).setVal 0x32)) =
    some [some 0x51, some 0x84, some 0x03, some 0x10, some 0x00, some 0x32, some 0x9A] := by decide
/-- Section 2.2: a checksum byte of 0x00. -/
theorem test_encw_zero_checksum : see frame (exec .encw (State.reset.setCid 0xB8)) =
    some [some 0x51, some 0x84, some 0x03, some 0xB8, some 0x00, some 0x00, some 0x00] := by decide
/-- Section 1.1. -/
theorem test_encr : see frame (exec .encr (State.reset.setCid 0x10)) =
    some [some 0x51, some 0x82, some 0x01, some 0x10, some 0xAC] := by decide
/-- Section 2.3. -/
theorem test_encr_ff : see frame (exec .encr ((State.reset.setCid 0xFF).setVal 0x32)) =
    some [some 0x51, some 0x82, some 0x01, some 0xFF, some 0x43] := by decide
/-- Section 1.2, vector 1. -/
theorem test_decr : see (fun t => (rrStatus t, t.rrMax, t.rrCur)) (exec .decr (withReply 0x10 goodReply)) =
    some ((true, 0), 100, 50) := by decide
/-- Section 2.5, rows 4 to 9, 11, 12, 14, 16 to 18, 22, 23: the cause that is reported; section 1.2, vectors 5 and 9: other
settings of the parameters. -/
theorem test_decr_causes : replyVerdict ⟨0x50, 1⟩ 0x10 [0x6E, 0x88, 0x02, 0x00, 0x10, 0x00, 0x00, 0x64, 0x00, 0x32, 0xF2] =
      .valid 100 50 ∧ replyVerdict ⟨0x6E, 1⟩ 0x10 goodReply = .failed .length ∧
    ([[0x6E, 0x80, 0x80], [0x6E, 0x81, 0x02, 0x83], [0x6E, 0x82, 0x02, 0x00, 0x80],
      [0x6E, 0x82, 0x02, 0x01, 0x81], [0x6E, 0x83, 0x02, 0x01, 0x10, 0x90],
      [0x6E, 0x87, 0x02, 0x01, 0x10, 0x00, 0x64, 0x00, 0x32, 0xC2],
      [0x6E, 0x07, 0x02, 0x00, 0x10, 0x00, 0x64, 0x00, 0x32, 0x43],
      [0x6E, 0x87, 0x02, 0x00, 0x10, 0x00, 0x64, 0x00, 0x32],
      [0x6E, 0x87, 0x02, 0x00, 0x10, 0x00, 0x65, 0x00, 0x32, 0xC3],
      [0x6E, 0x87, 0x02, 0x00, 0x12, 0x00, 0x64, 0x00, 0x32, 0xC1],
      [0x6E, 0x85, 0x02, 0x00, 0x10, 0x00, 0x64, 0xF3],
      [0x6E, 0x86, 0x02, 0x00, 0x10, 0x00, 0x64, 0x00, 0xF0],
      [0x6E, 0x87, 0x02, 0x00, 0x12, 0x00, 0x64, 0x00, 0x32, 0xC0],
      [0x6E, 0x87, 0x02, 0x01, 0x12, 0x00, 0x64, 0x00, 0x32, 0xC0]].map
        fun r => (replyVerdict Config.hw 0x10 r).code) = [1, 1, 1, 3, 3, 3, 1, 1, 2, 4, 1, 1, 2, 3] := by decide
/-- Section 1.3, vector 1 and section 3.2, row 6: block M, and 127 bytes of it. -/
theorem test_edid : see edStatus (exec .edid (withBlock (header ++ List.replicate 119 0x00 ++ [0x06]))) =
    some (true, 0, true) ∧
    see edStatus (exec .edid (withBlock (header ++ List.replicate 119 0x00))) = some (false, 1, false) := by
  refine ⟨?_, by decide +kernel⟩
  rw [edid_withBlock _ (by simp [header])]
  decide +kernel
/-- The record of block S (section 3.1). -/
def sampleRecord : Record := recordOf sampleBlock
/-- Section 3.1: one field of each kind. -/
theorem test_record :
    [sampleRecord.mfgL1, sampleRecord.mfgL2, sampleRecord.mfgL3] = [2, 13, 20] ∧
    (sampleRecord.mfgId, sampleRecord.product, sampleRecord.serial) = (0x09B4, 0x1234, 0x89ABCDEF) ∧
    [sampleRecord.week, sampleRecord.year, sampleRecord.version, sampleRecord.revision] = [10, 25, 1, 3] ∧
    sampleRecord.vin = .digital false 0 ∧
    [sampleRecord.hsizeCm, sampleRecord.vsizeCm, sampleRecord.gamma, sampleRecord.checksum] = [52, 32, 120, 0x58] ∧
    [sampleRecord.pwrStandby, sampleRecord.srgb, sampleRecord.prefTiming, sampleRecord.gtf] =
      [true, false, true, false] ∧
    [sampleRecord.redX, sampleRecord.redY, sampleRecord.greenX, sampleRecord.greenY, sampleRecord.blueX,
      sampleRecord.blueY, sampleRecord.whiteX, sampleRecord.whiteY] = [655, 338, 307, 614, 154, 61, 320, 337] ∧
    sampleRecord.est = 0x210800 ∧
    [sampleRecord.std[1], sampleRecord.std[3]] = [⟨true, 0x81, 2, 0⟩, ⟨false, 1, 0, 1⟩] ∧
    sampleRecord.desc[1] = .range ⟨56, 76, 30, 83, 17, 0, #v[0x0A, 0x20, 0x20, 0x20, 0x20, 0x20, 0x20]⟩ ∧
    sampleRecord.desc[3] = .unused := by
  decide +kernel
/-- Section 2.2, with `VW` = 16. -/
theorem test_frameW : see frame (exec (.frameW 0x10 0x01 0x23 0x8A) State.reset) =
    some [some 0x51, some 0x84, some 0x03, some 0x10, some 0x01, some 0x23, some 0x8A] := by decide
/-- Section 2.3. -/
theorem test_frameR : see frame (exec (.frameR 0x60 0xDC) State.reset) =
    some [some 0x51, some 0x82, some 0x01, some 0x60, some 0xDC] := by decide
/-- Section 2.5, row 19: two bytes after the values. -/
theorem test_frameP : see (fun t => (rrStatus t, t.rrMax, t.rrCur))
    (exec (.frameP 0x6E 9 0x02 0x10 none 0x00 0x64 0x00 0x32 [0xAA, 0xBB] 0xDC) (State.reset.setCid 0x10)) =
      some ((true, 0), 100, 50) := by decide
/-- Section 2.5, row 16. -/
theorem test_frameP_echo : see rrStatus
    (exec (.frameP 0x6E 7 0x02 0x12 none 0x00 0x64 0x00 0x32 [] 0xC1) (State.reset.setCid 0x10)) =
      some (false, 4) := by decide
/-- Section 3.4, rows 1 and 2. -/
theorem test_slotUnusedZero : see (·.record.desc[0]) (exec (.slotUnusedZero 0) State.reset) = some .unused := by decide
theorem test_slotUnusedOnes : see (·.record.desc[1]) (exec (.slotUnusedOnes 1) State.reset) = some .unused := by decide
/-- Section 3.4, row 13. -/
theorem test_slotTextSerial : see (·.record.desc[2]) (exec (.slotTextSerial 2 [0x00, 0x31, 0x32, 0x33, 0x0A, 0x20, 0x20,
    0x20, 0x20, 0x20, 0x20, 0x20, 0x20, 0x20]) State.reset) = some (.text .serial #v[0x31, 0x32, 0x33, 0x0A, 0x20,
    0x20, 0x20, 0x20, 0x20, 0x20, 0x20, 0x20, 0x20] 3) := by decide
/-- Section 3.4, row 14. -/
theorem test_slotTextComment : see (·.record.desc[3]) (exec (.slotTextComment 3 ([0x00, 0x0A] ++ List.replicate 12 0x20))
    State.reset) = some (.text .comment #v[0x0A, 0x20, 0x20, 0x20, 0x20, 0x20, 0x20, 0x20, 0x20, 0x20, 0x20, 0x20,
    0x20] 0) := by decide
/-- Section 3.4, row 19. -/
theorem test_slotRange : see (·.record.desc[0]) (exec (.slotRange 0 [0x00, 0x32, 0x4B, 0x1E, 0x50, 0x0F, 0x02, 0x00, 0x0A,
    0x20, 0x10, 0x01, 0x30, 0x40]) State.reset) = some (.range ⟨50, 75, 30, 80, 15, 2,
    #v[0x00, 0x0A, 0x20, 0x10, 0x01, 0x30, 0x40]⟩) := by decide
/-- Section 3.4, row 12: no newline among the 13 bytes. -/
theorem test_slotTextName : see (·.record.desc[1]) (exec (.slotTextName 1 [0x00, 0x41, 0x42, 0x43, 0x44, 0x45, 0x46, 0x47,
    0x48, 0x49, 0x4A, 0x4B, 0x4C, 0x4D]) State.reset) = some (.text .name #v[0x41, 0x42, 0x43, 0x44, 0x45, 0x46, 0x47,
    0x48, 0x49, 0x4A, 0x4B, 0x4C, 0x4D] 13) := by decide
/-- Section 3.4, row 20. -/
theorem test_slotWhite : see (·.record.desc[2]) (exec (.slotWhite 2 [0x00, 0x01, 0x05, 0x4E, 0x52, 0x78, 0x00, 0x00, 0x00,
    0x00, 0x00, 0x0A, 0x20, 0x20]) State.reset) =
    some (.white ⟨1, 313, 329, 120⟩ ⟨0, 0, 0, 0⟩ #v[0x0A, 0x20, 0x20]) := by decide
/-- Section 3.4, row 21: the high nibble of the low-bits byte is ignored. -/
theorem test_slotWhite_second : see (·.record.desc[2]) (exec (.slotWhite 2 [0x00, 0x01, 0xFF, 0xFF, 0xFF, 0xFF, 0x02, 0xF0,
    0x00, 0x80, 0x00, 0x0A, 0x20, 0x20]) State.reset) =
    some (.white ⟨1, 1023, 1023, 255⟩ ⟨2, 0, 512, 0⟩ #v[0x0A, 0x20, 0x20]) := by decide
/-- Section 3.4, row 11. -/
theorem test_slotUnusedOther : see (·.record.desc[3])
    (exec (.slotUnusedOther 3 ([0x01, 0xFC, 0x00] ++ List.replicate 13 0x41)) State.reset) = some .unused := by decide
/-- Section 3.1, `DESC[0]`. -/
theorem test_slotDtd : see (·.record.desc[0]) (exec (.slotDtd 0 slotDtdS) State.reset) = some (.dtd ⟨15400, 1920, 160,
    1200, 35, 48, 32, 3, 6, 518, 324, 0, 0, false, 0, 3, 1⟩) := by decide
/-- Section 3.4, row 8. -/
theorem test_slotDtd_sync : see (·.record.desc[0]) (exec (.slotDtd 0 [0x01, 0x00, 0x00, 0x00, 0x00, 0x00, 0x00, 0x00, 0x00,
    0x00, 0xA5, 0xE4, 0x00, 0x00, 0x00, 0x00, 0x00, 0x61]) State.reset) = some (.dtd ⟨1, 0, 0, 0, 0, 768, 512, 26, 5,
    0, 0, 0, 0, false, 7, 0, 0⟩) := by decide
/-- Sections 1.2, vector 5 and 2.2: `DECR` with seed 0x50 and T = 1, `ENCW` with `VW` = 16. -/
theorem test_setting : see (fun t => (rrStatus t, t.rrMax, t.rrCur))
      (execAt standard 0 .decr (withReply 0x10 typedReply)) = some ((true, 0), 100, 50) ∧
    see frame (execAt standard 0x0123 .encw (State.reset.setCid 0x10)) =
      some [some 0x51, some 0x84, some 0x03, some 0x10, some 0x01, some 0x23, some 0x8A] := by decide
/-- A table word placed for the next step is the command it runs (30_encoding.md R70). -/
theorem test_step_fetches : step (State.reset.withFetchWord 8 1) = exec .encr (State.reset.setCmd 1) := rfl

/-! ### Witnesses: for every statement with hypotheses, values that meet them -/

theorem witness_DecodeOfEncodeIsIdentity : Instr.wellFormed (.frameW 0x10 0x00 0x32 0x9A) = true ∧
    Instr.wellFormed (.frameP 0x6E 7 0x02 0x10 none 0x00 0x64 0x00 0x32 [] 0xC3) = true ∧
    Instr.wellFormed (.slotUnusedOther 0 ([0x00, 0x10] ++ List.replicate 14 0x00)) = true ∧
    Instr.wellFormedAt ⟨0x50, 1⟩ (.frameP 0x6E 8 0x02 0x10 (some 0x00) 0x00 0x64 0x00 0x32 [] 0xF2) = true := by decide
theorem witness_EncodeOfDecodeIsIdentity : decode .reply goodReply =
      .ok (.frameP 0x6E 7 0x02 0x10 none 0x00 0x64 0x00 0x32 [] 0xC3) ∧
    decodeAt ⟨0x50, 1⟩ .reply typedReply = .ok (.frameP 0x6E 8 0x02 0x10 (some 0x00) 0x00 0x64 0x00 0x32 [] 0xF2) := by
  decide
theorem witness_EverySlotContentDecodes : (List.replicate 18 (0xFF : Byte)).length = 18 := by decide
theorem witness_StepRunsTheDecodedRow :
    (portBytes (State.reset.setCmd 3) = .next [3] ∧ decode (State.reset.setCmd 3).port [3] = .ok .edid) ∧
    let s := State.reset.withFetchWord 40 0x51820110AC
    portBytes s = .next [0x51, 0x82, 0x01, 0x10, 0xAC] ∧
      decode s.port [0x51, 0x82, 0x01, 0x10, 0xAC] = .ok (.frameR 0x10 0xAC) ∧
      Instr.wellFormed (.frameR 0x10 0xAC) = true ∧
      portBytesAt standard.rxcap s = .next [0x51, 0x82, 0x01, 0x10, 0xAC] ∧
      decodeAt standard.toParams s.port [0x51, 0x82, 0x01, 0x10, 0xAC] = .ok (.frameR 0x10 0xAC) :=
  ⟨⟨rfl, rfl⟩, rfl, rfl, rfl, rfl, rfl⟩
theorem witness_CommandPortRunsCmd : ∀ c : BitVec 2, (State.reset.setCmd c).port = .command ∧
    (State.reset.setCmd c).cmd = c := by decide
theorem witness_ReadyCommandsComplete :
    (let s := (withReply 0x10 goodReply).setCmd 2
     s.port = .command ∧ decode .command [s.cmd.setWidth 8] = .ok .decr ∧ s.ready .decr) ∧
    (let s := (withBlock sampleBlock).setCmd 3
     s.port = .command ∧ decode .command [s.cmd.setWidth 8] = .ok .edid ∧ s.ready .edid) ∧
    (State.reset.port = .command ∧ decode .command [State.reset.cmd.setWidth 8] = .ok .encw ∧ State.reset.ready .encw) ∧
    let s := State.reset.setCmd 1
    s.port = .command ∧ decode .command [s.cmd.setWidth 8] = .ok .encr ∧ s.ready .encr := by
  refine ⟨⟨rfl, rfl, ?_⟩, ⟨rfl, rfl, ?_⟩, ⟨rfl, rfl, trivial⟩, rfl, rfl, trivial⟩
  · obtain ⟨h1, h2, h3⟩ := withReply_is 0x10 goodReply (by decide)
    refine ⟨h1 ▸ h2, fun j _ hj => ?_⟩
    rw [State.setCmd_rxlen, h1, Nat.zero_add] at hj
    simpa [State.buf] using congrArg Option.isSome (h3 j hj)
  · obtain ⟨h1, _, h3⟩ := withBlock_is sampleBlock sampleBlock_length
    refine ⟨Nat.le_of_eq h1, fun j _ hj => ?_⟩
    rw [State.setCmd_edlen, h1, Nat.zero_add] at hj
    simpa [State.buf] using congrArg Option.isSome (h3 j hj)
theorem witness_OperandsOutOfRangeAreRefused :
    Config.rxcap < (State.reset.setRx (BitVec.ofNat 8 (Config.rxcap + 1)) []).rxlen.toNat ∧
    128 < (State.reset.setEdIn 129 []).edlen.toNat ∧ 3 < (4 : Byte).toNat := by
  have := rxcap_le
  refine ⟨?_, by decide, by decide⟩
  simp only [State.setRx_rxlen, BitVec.toNat_ofNat]
  omega
theorem witness_NoAccessOutsideABuffer : ∃ t, exec .encr State.reset = .next t := ⟨_, rfl⟩
theorem witness_FaultsOnlyOnUnwrittenCells :
    exec .decr (State.reset.setRx 3 []) = .fault .unwrittenCell ∧
    exec .edid (State.reset.setEdIn 128 []) = .fault .unwrittenCell := ⟨rfl, rfl⟩
theorem witness_XorChecksumDetection : let l : List Byte := [0x51, 0x82]
    (1 < l.length ∧ (0x83 : Byte) ≠ byteAt l 1) ∧ (0 < l.length ∧ 1 < l.length ∧ 0 ≠ 1) ∧ l.Perm [0x82, 0x51] := by
  exact ⟨by decide, by decide, .swap 0x82 0x51 []⟩
theorem witness_OneLastByteMakesABlockValid : sampleHead.length = 127 := by decide +kernel
theorem witness_DecrWritesTheVerdict : (withReply 0x10 goodReply).replyIs goodReply ∧
    (withReply 0x10 typedReply).replyIsIn standard.rxcap typedReply :=
  ⟨withReply_is _ _ (by decide), by decide, by decide, by decide⟩
theorem witness_ReplyValidExactlyWhenChecksPass : (List.replicate 130 (0x00 : Byte)).length ≤ 130 := by simp
theorem witness_ExtractionIsBigEndian :
    ((withReply 0x10 goodReply).replyIs goodReply ∧
      ∃ t, exec .decr (withReply 0x10 goodReply) = .next t ∧ t.rrValid = true) ∧
    replyVerdict ⟨0x50, 1⟩ 0x10 [0x6E, 0x88, 0x02, 0x00, 0x10, 0x00, 0x00, 0x64, 0x00, 0x32, 0xF2] = .valid 100 50 :=
  ⟨⟨withReply_is _ _ (by decide), _, rfl, rfl⟩, by decide⟩
theorem witness_ReplyReportsTheFirstCause : goodReply.length ≤ 130 := by decide
theorem witness_FailedReplyWritesItsCode :
    (let r : List Byte := [0x6E, 0x80]
     (withReply 0x10 r).replyIs r ∧ replyVerdict Config.hw 0x10 r = .failed .length) ∧
    (let r : List Byte := [0x6E, 0x87, 0x02, 0x00, 0x10, 0x00, 0x65, 0x00, 0x32, 0xC3]
     (withReply 0x10 r).replyIs r ∧ replyVerdict Config.hw 0x10 r = .failed .checksum) ∧
    (let r : List Byte := [0x6E, 0x82, 0x02, 0x01, 0x81]
     (withReply 0x10 r).replyIs r ∧ replyVerdict Config.hw 0x10 r = .failed .declined) ∧
    (withReply 0x12 goodReply).replyIs goodReply ∧ replyVerdict Config.hw 0x12 goodReply = .failed .echo :=
  ⟨⟨withReply_is _ _ (by decide), by decide⟩, ⟨withReply_is _ _ (by decide), by decide⟩,
    ⟨withReply_is _ _ (by decide), by decide⟩, withReply_is _ _ (by decide), by decide⟩
theorem witness_TruncatedReplyIsInvalid : let s := withReply 0x10 goodReply.dropLast
    s.rxlen.toNat ≤ Config.rxcap ∧ Memory.read s.rxbuf 1 = some 0x87 ∧
      s.rxlen.toNat < (bits (0x87 : Byte) 0 7).toNat + 3 :=
  ⟨Nat.le_trans (by decide) rxcap_ge, by decide, by decide⟩
theorem witness_ShortReplyReadsNothing : (State.reset.setRx 2 []).rxlen.toNat ≤ 2 := by decide
theorem witness_WrongSeedIsAlwaysDetected : Config.Params.rxSeed ⟨0x50, 0⟩ ≠ Config.Params.rxSeed ⟨0x6E, 0⟩ ∧
    replyVerdict ⟨0x6E, 0⟩ 0x10 goodReply = .valid 100 50 := by decide
theorem witness_ReplyRowIsExamined :
    Instr.wellFormed (.frameP 0x6E 7 0x02 0x10 none 0x00 0x64 0x00 0x32 [] 0xC3) = true ∧
    0x10 = (State.reset.setCid 0x10).cid ∧ 0x10 ≠ State.reset.cid := by decide
theorem witness_DecrAgreesWithTheReplyRow : (withReply 0x10 goodReply).replyIs goodReply ∧
    decode .reply goodReply = .ok (.frameP 0x6E 7 0x02 0x10 none 0x00 0x64 0x00 0x32 [] 0xC3) :=
  ⟨withReply_is _ _ (by decide), by decide⟩
theorem witness_ShortBlockIsStructuralError : (State.reset.setEdIn 127 []).edlen.toNat < 128 := by decide
theorem witness_HeaderDecidesStructure :
    ((withBlock sampleBlock).blockIs sampleBlock ∧ sampleBlock.take 8 = Config.edidHeader) ∧
    let e := List.replicate 128 (0x00 : Byte)
    (withBlock e).blockIs e ∧ e.take 8 ≠ Config.edidHeader :=
  ⟨⟨withBlock_is _ sampleBlock_length, sampleBlock_header⟩, withBlock_is _ (by simp), by decide +kernel⟩
theorem witness_IdentityFields : (withBlock sampleBlock).blockIs sampleBlock ∧ sampleBlock.take 8 = Config.edidHeader :=
  witness_HeaderDecidesStructure.1
theorem witness_VideoInputVariant :
    ((withBlock sampleBlock).blockIs sampleBlock ∧ sampleBlock.take 8 = Config.edidHeader ∧
      128 ≤ (byteAt sampleBlock 20).toNat) ∧
    let e := sampleBlock.set 20 0x7F
    (withBlock e).blockIs e ∧ e.take 8 = Config.edidHeader ∧ (byteAt e 20).toNat < 128 :=
  ⟨⟨withBlock_is _ sampleBlock_length, sampleBlock_header, by decide +kernel⟩,
    withBlock_is _ (by rw [List.length_set, sampleBlock_length]), by decide +kernel, by decide +kernel⟩
theorem witness_DisplayParameterFields :
    (withBlock sampleBlock).blockIs sampleBlock ∧ sampleBlock.take 8 = Config.edidHeader := witness_IdentityFields
theorem witness_ChromaticityFields :
    (withBlock sampleBlock).blockIs sampleBlock ∧ sampleBlock.take 8 = Config.edidHeader := witness_IdentityFields
theorem witness_TimingFields :
    (withBlock sampleBlock).blockIs sampleBlock ∧ sampleBlock.take 8 = Config.edidHeader := witness_IdentityFields
theorem witness_DescriptorsAreTheirSlots :
    (withBlock sampleBlock).blockIs sampleBlock ∧ sampleBlock.take 8 = Config.edidHeader ∧ slotDtdS.length = 18 ∧
      ∀ j, j < 18 → byteAt slotDtdS j = byteAt sampleBlock (54 + 18 * (0 : Fin 4).val + j) :=
  ⟨witness_IdentityFields.1, witness_IdentityFields.2, by decide, by decide +kernel⟩
theorem witness_EdidIsIdempotent : ∃ t, exec .edid (withBlock sampleBlock) = .next t ∧ t.edOk = true :=
  ⟨_, edid_withBlock _ sampleBlock_length, by decide +kernel⟩
theorem witness_FinalByteFlipsOnlyTheVerdict : sampleHead.length = 127 ∧ sampleHead.take 8 = Config.edidHeader ∧
    sum8 (sampleHead ++ [0x58]) = 0x00 ∧ (0x59 : Byte) ≠ 0x58 ∧
    (withBlock (sampleHead ++ [0x58])).blockIs (sampleHead ++ [0x58]) ∧
    (withBlock (sampleHead ++ [0x59])).blockIs (sampleHead ++ [0x59]) :=
  ⟨by decide +kernel, by decide +kernel, by decide +kernel, by decide, withBlock_is _ (by decide +kernel),
    withBlock_is _ (by decide +kernel)⟩
/-- One content for each clause: both empty ones, a clock of 1 in either byte, a guard, the five tags, the next tag below. -/
theorem witness_SelectorFollowsTheTests : ([List.replicate 18 0x00, List.replicate 18 0xFF, 0x01 :: List.replicate 17 0x00,
      [0x00, 0x01] ++ List.replicate 16 0x00, [0x00, 0x00, 0x01, 0xFC] ++ List.replicate 14 0x00,
      [0x00, 0x00, 0x00, 0xFF] ++ List.replicate 14 0x0A, [0x00, 0x00, 0x00, 0xFE] ++ List.replicate 14 0x0A,
      [0x00, 0x00, 0x00, 0xFD] ++ List.replicate 14 0x0A, [0x00, 0x00, 0x00, 0xFC] ++ List.replicate 14 0x0A,
      [0x00, 0x00, 0x00, 0xFB] ++ List.replicate 14 0x0A, [0x00, 0x00, 0x00, 0xFA] ++ List.replicate 14 0x0A].map
    fun d => (d.length, match slotDesc d with
      | .dtd _ => 1
      | .text .serial _ _ => 2
      | .text .comment _ _ => 3
      | .text .name _ _ => 4
      | .range _ => 5
      | .white _ _ _ => 6
      | .unused => 0)) =
    [(18, 0), (18, 0), (18, 1), (18, 1), (18, 0), (18, 2), (18, 3), (18, 5), (18, 4), (18, 6), (18, 0)] := by decide
theorem witness_SlotRowsAgreeWithTheSelector : decode (.slot 0) slotDtdS = .ok (.slotDtd 0 slotDtdS) := by decide
theorem witness_SlotRowsRepeatTheCommand : ∃ t, exec .edid (withBlock sampleBlock) = .next t ∧ t.edOk = true :=
  witness_EdidIsIdempotent
theorem witness_DetailedTimingRow : slotDtdS.length = 18 := by decide
theorem witness_TextRows : nameBodyS.length = 14 := by decide
theorem witness_RangeLimitsRow : rangeBodyS.length = 14 := by decide
theorem witness_WhitePointRow : (List.replicate 14 (0x07 : Byte)).length = 14 := by decide
/-- Every row answers a next state somewhere. -/
theorem witness_EachRowChangesOnlyItsGroup : ([.encw, .encr, .decr, .frameW 0 0 0 0xB8, .frameR 0 0xBC,
      .frameP 0x6E 7 0x02 0x10 none 0x00 0x64 0x00 0x32 [] 0xC3, .slotUnusedZero 0, .slotUnusedOnes 1,
      .slotTextSerial 2 nameBodyS, .slotTextComment 3 nameBodyS, .slotRange 0 rangeBodyS, .slotTextName 1 nameBodyS,
      .slotWhite 2 nameBodyS, .slotUnusedOther 3 (List.replicate 16 0x01), .slotDtd 0 slotDtdS].all
        fun i => (see id (exec i State.reset)).isSome) = true ∧
    ∃ t, exec .edid (withBlock sampleBlock) = .next t := ⟨by decide +kernel, _, edid_withBlock _ sampleBlock_length⟩
theorem witness_CellsPastTheLengthDoNotMatter : let s := withReply 0x10 goodReply
    let rx := Memory.write s.rxbuf 10 0x55
    let ed := Memory.write s.edbuf 0 0x55
    (∀ j, j < s.rxlen.toNat → Memory.read rx j = Memory.read s.rxbuf j) ∧
      ∀ j, j < s.edlen.toNat → Memory.read ed j = Memory.read s.edbuf j := by decide
/-- Two states that agree on what the command reads and differ in everything else a command could see. -/
theorem witness_ResultsDependOnOperandsAlone :
    (let s := (withReply 0x10 goodReply).setVal 0x32
     let s' := (((State.reset.setEdIn 7 [(0, 0x55)]).setCid 0x10).setVal 0x32).setRr false 4 1 2
     s'.cid = s.cid ∧ s'.val = s.val ∧ (∃ t, exec .encw s = .next t) ∧ ∃ t, exec .encr s = .next t) ∧
    (let s := withReply 0x10 goodReply
     let s' := ((s.setEdIn 7 [(0, 0x55)]).setVal 9).setTx 7 [(0, 0x51)]
     s'.cid = s.cid ∧ s'.rxlen = s.rxlen ∧ s'.rxbuf = s.rxbuf ∧ ∃ t, exec .decr s = .next t ∧ t.rrValid = true) ∧
    (let s := withBlock sampleBlock
     let s' := ((s.setRx 7 [(0, 0x55)]).setVal 9).setCid 8
     s'.edlen = s.edlen ∧ s'.edbuf = s.edbuf ∧ ∃ t, exec .edid s = .next t ∧ t.edOk = true) :=
  ⟨⟨rfl, rfl, ⟨_, rfl⟩, _, rfl⟩, ⟨rfl, rfl, rfl, _, rfl, rfl⟩, by
    refine ⟨?_, ?_, witness_EdidIsIdempotent⟩ <;> simp only [State.setCid_edlen, State.setVal_edlen, State.setRx_edlen,
      State.setCid_edbuf, State.setVal_edbuf, State.setRx_edbuf]⟩
theorem witness_StepKeepsTheInvariant : let s := (withReply 0x10 goodReply).setCmd 2
    s.inv = true ∧ ∃ t, step s = .next t := ⟨by decide, _, rfl⟩
/-- Each way an attempt fails: two retries, three failed attempts. -/
theorem witness_FailedAttemptsExhaustTheRetries :
    (∀ f ∈ [.timeout, .transientError, .bytes []].take 3, Fetched.fails 0x10 f) ∧
    (∀ f ∈ [.timeout, .transientError, .bytes []].take 3, Fetched.received f = []) ∧
    ∀ f ∈ [.timeout, .transientError, .bytes [0x6E, 0x80]].take 3, Fetched.fails 0x10 f := by
  have cut : ∀ l : List Byte, l.length ≤ 10 → l.take Config.rxcap = l := fun l h =>
    List.take_of_length_le (Nat.le_trans h rxcap_ge)
  refine ⟨?_, by decide, ?_⟩ <;> simp only [List.take_succ_cons, List.take_zero, List.forall_mem_cons]
  · exact ⟨trivial, trivial, ⟨.length, by rw [cut _ (by decide)]; decide⟩, by simp⟩
  · exact ⟨trivial, trivial, ⟨.length, by rw [cut _ (by decide)]; decide⟩, by simp⟩
/-- As many failed attempts as retries, then a good reply. -/
theorem witness_GetControlEndsAtTheFirstGoodReply :
    [Fetched.timeout, .bytes [0x6E, 0x80]].length ≤ 2 ∧
    (∀ f ∈ [.timeout, .bytes [0x6E, 0x80]], Fetched.fails 0x10 f) ∧ Fetched.carries 0x10 100 50 (.bytes goodReply) := by
  have cut : ∀ l : List Byte, l.length ≤ 10 → l.take Config.rxcap = l := fun l h =>
    List.take_of_length_le (Nat.le_trans h rxcap_ge)
  refine ⟨by decide, ?_, by simp only [Fetched.carries]; rw [cut _ (by decide)]; decide⟩
  simp only [List.forall_mem_cons]
  exact ⟨trivial, ⟨.length, by rw [cut _ (by decide)]; decide⟩, by simp⟩
theorem witness_ReadEdidOutcomes : sampleHead.length < 128 ∧
    (128 ≤ (List.replicate 128 (0x00 : Byte)).length ∧ (List.replicate 128 (0x00 : Byte)).take 8 ≠ Config.edidHeader) ∧
    128 ≤ sampleBlock.length ∧ sampleBlock.take 8 = Config.edidHeader := by decide +kernel

end Sys2Proof.Tests
end

section
/-! What the commands read: a range read depends on the cells it covers alone, `DECR` and `EDID` are a verdict computed
from the operands and the input buffer followed by a write of their result group, and what each result group shows of
that verdict (10_state.md R23, R29). -/

namespace Sys2Proof.Machine

/-! ### Outcomes in sequence -/

@[simp] theorem andThen_next {α β : Type} (a : α) (g : α → Host.Outcome β Fault Refusal) :
    andThen (.next a) g = g a := rfl

theorem andThen_assoc {α β γ : Type} (o : Host.Outcome α Fault Refusal) (f : α → Host.Outcome β Fault Refusal)
    (g : β → Host.Outcome γ Fault Refusal) : andThen (andThen o f) g = andThen o fun a => andThen (f a) g := by
  cases o <;> rfl

/-- A sequence answers a next state exactly when its first part does and its second part does from there. -/
theorem andThen_eq_next_iff {α β : Type} (o : Host.Outcome α Fault Refusal) (g : α → Host.Outcome β Fault Refusal)
    (b : β) : andThen o g = .next b ↔ ∃ a, o = .next a ∧ g a = .next b := by
  cases o <;> simp [andThen]

/-! ### Reads depend on the cells they cover alone -/

theorem readCell_congr (n : Nat) {m m' : Memory} {i : Nat} (h : Memory.read m' i = Memory.read m i) :
    readCell n m' i = readCell n m i := by
  rw [readCell, readCell, h]

theorem readCells_congr (n : Nat) {m m' : Memory} : ∀ (k i : Nat),
    (∀ j, i ≤ j → j < i + k → Memory.read m' j = Memory.read m j) → readCells n m' i k = readCells n m i k := by
  intro k
  induction k with
  | zero => intro i _; rfl
  | succ k ih =>
    intro i h
    have head := readCell_congr n (h i (by omega) (by omega))
    have tail := ih (i + 1) fun j _ _ => h j (by omega) (by omega)
    rw [readCells, readCells, head, tail]

/-! ### `DECR` and `EDID` as a verdict and a write of the result group -/

/-- What `DECR` at a setting of the parameters finds out from its operands `CID` and `RXLEN` and from `RXBUF`
(42_ddc_decode.md R121). -/
def decrVerdict (p : Config.Setting) (cid : Byte) (len : BitVec 8) (rx : Memory) :
    Host.Outcome ReplyVerdict Fault Refusal :=
  if p.rxcap < len.toNat then .refused .rxlenOverCapacity
  else if len.toNat < 3 then .next (.failed .length)
  else
    match readCell p.rxcap rx 1 with
    | .error f => .fault f
    | .ok b =>
      if b ≠ lenByte (len.toNat - 3) then .next (.failed .length)
      else
        match readCells p.rxcap rx 0 len.toNat with
        | .error f => .fault f
        | .ok r => .next (replyVerdict p.toParams cid r)

theorem decrAt_eq (p : Config.Setting) (s : State) :
    decrAt p s = andThen (decrVerdict p s.cid s.rxlen s.rxbuf) fun v => .next (putReply v s) := by
  unfold decrAt decrVerdict
  by_cases long : p.rxcap < s.rxlen.toNat
  · simp only [if_pos long, andThen]
  by_cases short : s.rxlen.toNat < 3
  · simp only [if_neg long, if_pos short, andThen_next, raiseReply_eq]
  simp only [if_neg long, if_neg short]
  cases readCell p.rxcap s.rxbuf 1 with
  | error f => rfl
  | ok b =>
    by_cases wrong : b ≠ lenByte (s.rxlen.toNat - 3)
    · simp only [if_pos wrong, andThen_next, raiseReply_eq]
    · simp only [if_neg wrong]
      cases readCells p.rxcap s.rxbuf 0 s.rxlen.toNat <;> rfl

theorem exec_decr_eq (s : State) :
    exec .decr s = andThen (decrVerdict Config.hardware s.cid s.rxlen s.rxbuf) fun v => .next (putReply v s) :=
  decrAt_eq Config.hardware s

/-- How `EDID` ends: a structural success with the checksum verdict and the record, or a structural failure
(44_edid_decode.md R161 to R163). -/
inductive EdidVerdict where
  | parsed (csum : Bool) (r : Record)
  | failed (f : EdidFailure) (csum : Bool)

/-- Write result group ED as `EDID` ended. -/
def putEdid (v : EdidVerdict) (s : State) : State :=
  match v with
  | .parsed csum r => acceptEdid csum r s
  | .failed f csum => raiseEdid f csum s

/-- What `EDID` finds out from the 128 bytes it has read. -/
def blockVerdict (e : List Byte) : EdidVerdict :=
  if headerPresent e then .parsed (csumVerdict e) (recordOf e) else .failed .header (csumVerdict e)

theorem decodeEdid_eq (e : List Byte) (s : State) : decodeEdid e s = putEdid (blockVerdict e) s := by
  unfold decodeEdid blockVerdict
  split <;> rfl

/-- What `EDID` finds out from its operand `EDLEN` and from `EDBUF` (44_edid_decode.md R163). -/
def edidVerdict (len : BitVec 8) (ed : Memory) : Host.Outcome EdidVerdict Fault Refusal :=
  if Config.edidLen < len.toNat then .refused .edlenOverBuffer
  else if len.toNat < Config.edidLen then .next (.failed .short false)
  else
    match readCells Config.edidLen ed 0 Config.edidLen with
    | .error f => .fault f
    | .ok e => .next (blockVerdict e)

theorem execEdid_eq (s : State) :
    execEdid s = andThen (edidVerdict s.edlen s.edbuf) fun v => .next (putEdid v s) := by
  have cells : readRange s .ed 0 Config.edidLen = readCells Config.edidLen s.edbuf 0 Config.edidLen := rfl
  unfold execEdid edidVerdict
  rw [cells]
  by_cases long : Config.edidLen < s.edlen.toNat
  · simp only [if_pos long, andThen]
  by_cases short : s.edlen.toNat < Config.edidLen
  · simp only [if_neg long, if_pos short, andThen_next, putEdid]
  simp only [if_neg long, if_neg short]
  cases readCells Config.edidLen s.edbuf 0 Config.edidLen with
  | error f => rfl
  | ok e => exact congrArg Host.Outcome.next (decodeEdid_eq e s)

theorem exec_edid_eq (s : State) :
    exec .edid s = andThen (edidVerdict s.edlen s.edbuf) fun v => .next (putEdid v s) :=
  execEdid_eq s

/-- `DECR` finds out the same from two contents of `RXBUF` that agree below `RXLEN`. -/
theorem decrVerdict_congr (p : Config.Setting) (cid : Byte) {len : BitVec 8} {rx rx' : Memory}
    (h : ∀ j, j < len.toNat → Memory.read rx' j = Memory.read rx j) :
    decrVerdict p cid len rx' = decrVerdict p cid len rx := by
  unfold decrVerdict
  by_cases short : len.toNat < 3
  · simp only [if_pos short]
  · have cell : readCell p.rxcap rx' 1 = readCell p.rxcap rx 1 := readCell_congr _ (h 1 (by omega))
    have cells : readCells p.rxcap rx' 0 len.toNat = readCells p.rxcap rx 0 len.toNat :=
      readCells_congr _ _ 0 fun j _ hj => h j (by omega)
    rw [cell, cells]

/-- `EDID` finds out the same from two contents of `EDBUF` that agree below `EDLEN`. -/
theorem edidVerdict_congr {len : BitVec 8} {ed ed' : Memory}
    (h : ∀ j, j < len.toNat → Memory.read ed' j = Memory.read ed j) : edidVerdict len ed' = edidVerdict len ed := by
  unfold edidVerdict
  by_cases short : len.toNat < Config.edidLen
  · simp only [if_pos short]
  · rw [readCells_congr Config.edidLen Config.edidLen 0 fun j _ hj => h j (by omega)]

/-! ### Other contents of the input buffers -/

/-- Other contents of `RXBUF` and `EDBUF`, under the same lengths. -/
def State.setInputs (s : State) (rx ed : Memory) : State :=
  { s with rxbuf := rx, edbuf := ed }

@[simp] theorem State.setInputs_cid (s : State) (rx ed : Memory) : (s.setInputs rx ed).cid = s.cid := rfl
@[simp] theorem State.setInputs_rxlen (s : State) (rx ed : Memory) : (s.setInputs rx ed).rxlen = s.rxlen := rfl
@[simp] theorem State.setInputs_edlen (s : State) (rx ed : Memory) : (s.setInputs rx ed).edlen = s.edlen := rfl
@[simp] theorem State.setInputs_rxbuf (s : State) (rx ed : Memory) : (s.setInputs rx ed).rxbuf = rx := rfl
@[simp] theorem State.setInputs_edbuf (s : State) (rx ed : Memory) : (s.setInputs rx ed).edbuf = ed := rfl

/-- Writing group RR neither reads nor writes an input buffer. -/
theorem putReply_setInputs (v : ReplyVerdict) (s : State) (rx ed : Memory) :
    putReply v (s.setInputs rx ed) = (putReply v s).setInputs rx ed := by
  cases v <;> rfl

/-- Writing group ED neither reads nor writes an input buffer. -/
theorem putEdid_setInputs (v : EdidVerdict) (s : State) (rx ed : Memory) :
    putEdid v (s.setInputs rx ed) = (putEdid v s).setInputs rx ed := by
  cases v <;> rfl

/-- Every row runs alike under other contents of the input buffers that agree below the lengths. -/
theorem exec_setInputs (i : Instr) (s : State) {rx ed : Memory}
    (hrx : ∀ j, j < s.rxlen.toNat → Memory.read rx j = Memory.read s.rxbuf j)
    (hed : ∀ j, j < s.edlen.toNat → Memory.read ed j = Memory.read s.edbuf j) :
    exec i (s.setInputs rx ed) = andThen (exec i s) fun t => .next (t.setInputs rx ed) := by
  cases i with
  | decr => simp only [exec_decr_eq, andThen_assoc, andThen_next, putReply_setInputs, State.setInputs_cid,
      State.setInputs_rxlen, State.setInputs_rxbuf, decrVerdict_congr _ s.cid hrx]
  | edid => simp only [exec_edid_eq, andThen_assoc, andThen_next, putEdid_setInputs, State.setInputs_edlen,
      State.setInputs_edbuf, edidVerdict_congr hed]
  | frameP => exact congrArg Host.Outcome.next (putReply_setInputs _ s rx ed)
  | encw | encr | frameW | frameR => rfl
  | slotUnusedZero | slotUnusedOnes | slotTextSerial | slotTextComment | slotRange | slotTextName | slotWhite
  | slotUnusedOther | slotDtd => rfl

/-! ### What a command's result group shows -/

/-- Bytes written from the start of a buffer that has room for them are read back, whatever was written after them. -/
theorem readRange_of_written_append (s : State) (b : Buffer) (m : Memory) (bs more : List Byte)
    (hl : bs.length ≤ b.cells) (hm : s.buf b = Memory.writeRange m 0 (bs ++ more)) :
    readRange s b 0 bs.length = .ok bs :=
  readCells_of_cells b.cells (s.buf b) bs 0 (by omega) fun j hj => by
    rw [hm, Nat.zero_add, Memory.read_writeRange_byteAt m _ (by rw [List.length_append]; omega), byteAt, byteAt,
      List.getD_append _ _ _ _ hj]

/-- `TXBUF` holds the 7-byte frame after it was emitted. -/
theorem readRange_emitW (frame : List Byte) (s : State) (h : frame.length = 7) :
    readRange (emitW frame s) .tx 0 7 = .ok frame := by
  rw [← h]
  exact readRange_of_written _ .tx s.txbuf frame h.le rfl

/-- `TXBUF` begins with the 5-byte frame after it was emitted. -/
theorem readRange_emitR (frame : List Byte) (s : State) (h : frame.length = 5) :
    readRange (emitR frame s) .tx 0 5 = .ok frame := by
  rw [← h]
  exact readRange_of_written_append _ .tx s.txbuf frame _ (h.trans_le (by decide)) rfl

/-- What group RR shows of a verdict does not depend on the state it is written to. -/
theorem putReply_results (v : ReplyVerdict) (s s' : State) :
    (putReply v s').rrValid = (putReply v s).rrValid ∧ (putReply v s').rrFail = (putReply v s).rrFail ∧
      ((putReply v s).rrValid = true →
        (putReply v s').rrMax = (putReply v s).rrMax ∧ (putReply v s').rrCur = (putReply v s).rrCur) := by
  cases v <;> simp

/-- What group ED shows of a verdict does not depend on the state it is written to. -/
theorem putEdid_results (v : EdidVerdict) (s s' : State) :
    (putEdid v s').edOk = (putEdid v s).edOk ∧ (putEdid v s').edErr = (putEdid v s).edErr ∧
      (putEdid v s').edCsumOk = (putEdid v s).edCsumOk ∧
      ((putEdid v s).edOk = true → (putEdid v s').record = (putEdid v s).record) := by
  cases v <;> simp [putEdid, acceptEdid_eq, raiseEdid_eq]

/-- `ENCW` emits the same frame from equal operands `CID` and `VAL`. -/
theorem encw_results {s s' t : State} (hcid : s'.cid = s.cid) (hval : s'.val = s.val) (h : exec .encw s = .next t) :
    ∃ t', exec .encw s' = .next t' ∧ t'.txlen = t.txlen ∧ readRange t' .tx 0 7 = readRange t .tx 0 7 := by
  cases h
  refine ⟨_, rfl, rfl, ?_⟩
  rw [readRange_emitW _ _ rfl, readRange_emitW _ _ rfl, hcid, hval]

/-- `ENCR` emits the same frame from an equal operand `CID`. -/
theorem encr_results {s s' t : State} (hcid : s'.cid = s.cid) (h : exec .encr s = .next t) :
    ∃ t', exec .encr s' = .next t' ∧ t'.txlen = t.txlen ∧ readRange t' .tx 0 5 = readRange t .tx 0 5 := by
  cases h
  refine ⟨_, rfl, rfl, ?_⟩
  rw [readRange_emitR _ _ rfl, readRange_emitR _ _ rfl, hcid]

/-- `DECR` gets the same results from equal operands `CID` and `RXLEN` and an equal `RXBUF`. -/
theorem decr_results {s s' t : State} (hcid : s'.cid = s.cid) (hlen : s'.rxlen = s.rxlen) (hbuf : s'.rxbuf = s.rxbuf)
    (h : exec .decr s = .next t) :
    ∃ t', exec .decr s' = .next t' ∧ t'.rrValid = t.rrValid ∧ t'.rrFail = t.rrFail ∧
      (t.rrValid = true → t'.rrMax = t.rrMax ∧ t'.rrCur = t.rrCur) := by
  rw [exec_decr_eq, andThen_eq_next_iff] at h
  obtain ⟨v, hv, ⟨⟩⟩ := h
  refine ⟨putReply v s', ?_, putReply_results v s s'⟩
  rw [exec_decr_eq, hcid, hlen, hbuf, hv, andThen_next]

/-- `EDID` gets the same results from an equal operand `EDLEN` and an equal `EDBUF`. -/
theorem edid_results {s s' t : State} (hlen : s'.edlen = s.edlen) (hbuf : s'.edbuf = s.edbuf)
    (h : exec .edid s = .next t) :
    ∃ t', exec .edid s' = .next t' ∧ t'.edOk = t.edOk ∧ t'.edErr = t.edErr ∧ t'.edCsumOk = t.edCsumOk ∧
      (t.edOk = true → t'.record = t.record) := by
  rw [exec_edid_eq, andThen_eq_next_iff] at h
  obtain ⟨v, hv, ⟨⟩⟩ := h
  refine ⟨putEdid v s', ?_, putEdid_results v s s'⟩
  rw [exec_edid_eq, hlen, hbuf, hv, andThen_next]

/-- Settles O53: `DECR` and `EDID` are the only rows that read an input buffer, and their verdicts read it below the
length alone. -/
theorem cellsPastTheLengthDoNotMatter : Obligations.CellsPastTheLengthDoNotMatter :=
  fun i s _ _ hrx hed => exec_setInputs i s hrx hed

/-- Settles O54: each command writes a frame or a verdict that is a function of its operands and its input buffer. -/
theorem resultsDependOnOperandsAlone : Obligations.ResultsDependOnOperandsAlone :=
  fun _ _ => ⟨fun hcid hval _ => encw_results hcid hval, fun hcid _ => encr_results hcid,
    fun hcid hlen hbuf _ => decr_results hcid hlen hbuf, fun hlen hbuf _ => edid_results hlen hbuf⟩

end Sys2Proof.Machine
end

section
/-! The two functional units: a checksum byte closes the XOR fold of a frame to zero, and the byte sum is the sum of the
bytes as numbers modulo 256 (40_checksum.md R101, R103). -/

namespace Sys2Proof.Machine

/-! ### The XOR checksum -/

/-- The fold of a list with one more byte at its end. -/
theorem xorFold_concat (seed : Byte) (s : List Byte) (b : Byte) : xorFold seed (s ++ [b]) = xorFold seed s ^^^ b := by
  rw [xorFold_append, xorFold_cons, xorFold_nil]

/-- Exactly the fold itself, appended, closes the fold to zero: a byte is its own only inverse under exclusive or. -/
theorem xorFold_concat_eq_zero_iff (seed : Byte) (s : List Byte) (b : Byte) :
    xorFold seed (s ++ [b]) = 0x00 ↔ b = xorFold seed s := by
  rw [xorFold_concat]
  exact BitVec.xor_eq_zero_iff.trans eq_comm

/-- A request frame folds to zero, whatever its bytes before the checksum. -/
theorem xorFold_append_requestChecksum (head : List Byte) :
    xorFold Config.destAddr (head ++ [requestChecksum head]) = 0x00 :=
  (xorFold_concat_eq_zero_iff _ head _).mpr rfl

/-- Settles O11: the law is one equivalence, and each encoder leaves in `TXBUF` its head with the law's last byte. -/
theorem xorChecksumLaw : Obligations.XorChecksumLaw := by
  refine ⟨fun seed c l => (xorFold_concat_eq_zero_iff seed l c).symm, fun s => ⟨?encw, ?encr⟩⟩
  case encw =>
    exact ⟨_, frameWBytes s.cid (zext16 s.val), rfl, readRange_emitW _ s rfl, xorFold_append_requestChecksum _⟩
  case encr => exact ⟨_, frameRBytes s.cid, rfl, readRange_emitR _ s rfl, xorFold_append_requestChecksum _⟩

/-! ### The byte sum -/

/-- The carry dropped at each byte: one more byte is added modulo 256. -/
theorem toNat_sum8_concat (s : List Byte) (b : Byte) :
    (sum8 (s ++ [b])).toNat = ((sum8 s).toNat + b.toNat) % 256 := by
  rw [sum8_concat, BitVec.toNat_add]

/-- The carry dropped once, at the end: induction on the last byte, since the sum runs from the left. -/
theorem toNat_sum8 (s : List Byte) : (sum8 s).toNat = (s.map BitVec.toNat).sum % 256 := by
  induction s using List.reverseRecOn with
  | nil => rfl
  | append_singleton s b ih =>
    rw [toNat_sum8_concat, ih, Nat.mod_add_mod, List.map_append, List.sum_append, List.map_singleton,
      List.sum_singleton]

/-- The sum of equal bytes is a product modulo 256. -/
theorem sum8_replicate (n : Nat) (b : Byte) : sum8 (List.replicate n b) = BitVec.ofNat 8 (n * b.toNat) := by
  apply BitVec.eq_of_toNat_eq
  rw [toNat_sum8, List.map_replicate, List.sum_replicate, smul_eq_mul, BitVec.toNat_ofNat]

/-- Settles O13: both ways to drop the carry, and the corner cases, the 128-byte ones as products. -/
theorem byteSumIsModulo256 : Obligations.ByteSumIsModulo256 :=
  ⟨toNat_sum8, toNat_sum8_concat, sum8_nil, sum8_replicate 128 0x00, sum8_replicate 128 0xFF, by decide⟩

end Sys2Proof.Machine
end

section
/-! The frame `ENCR` leaves in group TX, cell by cell (41_ddc_encode.md R114). -/

namespace Sys2Proof.Machine

/-- A 5-byte frame emitted stands in the first cells of `TXBUF`, before the two unspecified ones. -/
theorem read_txbuf_emitR {frame : List Byte} (s : State) {j : Nat} (hj : j < frame.length) :
    Memory.read (emitR frame s).txbuf j = some (byteAt frame j) := by
  have inside : j < (frame ++ [Config.freeTx5 s.fresh, Config.freeTx6 s.fresh]).length := by
    rw [List.length_append]
    omega
  rw [emitR_eq, State.bump_txbuf, State.setTx_txbuf, Memory.read_writeRange_byteAt _ _ inside, byteAt, byteAt,
    List.getD_append _ _ _ _ hj]

/-- The frame and the two unspecified cells are all that is written of `TXBUF`. -/
theorem read_txbuf_emitR_above {frame : List Byte} (s : State) {a : Nat} (ha : frame.length + 2 ≤ a) :
    Memory.read (emitR frame s).txbuf a = Memory.read s.txbuf a := by
  rw [emitR_eq, State.bump_txbuf, State.setTx_txbuf]
  refine Memory.read_writeRange_above _ _ ?_
  rw [List.length_append, List.length_cons, List.length_singleton]
  omega

/-- Emitting a 5-byte frame leaves every group but TX alone. -/
theorem onlyTx_emitR (frame : List Byte) (s : State) : s.onlyTx (emitR frame s) := rfl

/-- The seed and the fixed bytes of the read request fold to one constant, so its checksum is a function of `CID`. -/
theorem xorFold_frameRHead (cid : Byte) : xorFold 0x6E [0x51, 0x82, 0x01, cid] = 0xBC ^^^ cid := by
  rw [xorFold_cons, xorFold_cons, xorFold_cons, xorFold_cons, xorFold_nil]
  rfl

/-- Settles O16: `ENCR` emits the read frame of `CID`, so each cell is a byte of that frame. -/
theorem encrBuildsTheReadFrame : Obligations.EncrBuildsTheReadFrame := by
  intro s
  have cell : ∀ j, j < 5 → Memory.read (emitR (frameRBytes s.cid) s).txbuf j = some (byteAt (frameRBytes s.cid) j) :=
    fun _ hj => read_txbuf_emitR s hj
  exact ⟨emitR (frameRBytes s.cid) s, rfl, rfl, cell 0 (by decide), cell 1 (by decide), cell 2 (by decide),
    cell 3 (by decide), cell 4 (by decide), xorFold_frameRHead s.cid, fun _ ha => read_txbuf_emitR_above s ha,
    onlyTx_emitR _ s⟩

end Sys2Proof.Machine
end

section
/-! What a valid reply gives: the verdict of `DECR` on a received reply, the checks a valid one has passed, and its two
big-endian fields (42_ddc_decode.md R121, R128). -/

namespace Sys2Proof.Machine

/-! ### Big-endian fields -/

/-- A two-byte field is the number its bytes write, the high one first (30_encoding.md R79). -/
theorem toNat_be16 (hi lo : Byte) : (be16 hi lo).toNat = 256 * hi.toNat + lo.toNat := by
  rw [be16_eq_append, BitVec.toNat_append, ← Nat.shiftLeft_add_eq_or_of_lt lo.isLt, Nat.shiftLeft_eq]
  omega

/-- A 16-bit value is the field of its two bytes. -/
theorem be16_highByte_lowByte (v : BitVec 16) : be16 (highByte v) (lowByte v) = v := by
  rw [be16_eq_append, highByte, lowByte]
  exact (BitVec.extractLsb'_append_extractLsb'_eq_extractLsb' rfl).trans BitVec.extractLsb'_eq_self

/-! ### The verdict on the received bytes -/

/-- The checks of 42_ddc_decode.md R121, all passed: the received bytes are a reply to the control `cid`. -/
structure ReplyPasses (p : Config.Params) (cid : Byte) (r : List Byte) : Prop where
  long : 10 + p.typeByte.val ≤ r.length
  count : byteAt r 1 = lenByte (r.length - 3)
  sum : byteAt r (r.length - 1) = xorFold p.rxSeed (r.take (r.length - 1))
  accepted : byteAt r 3 = Config.rcOk
  echoed : byteAt r 4 = cid

/-- A reply that passes every check gives its two fields, at the payload offsets of R128. -/
theorem replyVerdict_of_passes {p : Config.Params} {cid : Byte} {r : List Byte} (h : ReplyPasses p cid r) :
    replyVerdict p cid r =
      .valid (be16 (byteAt r (5 + p.typeByte.val)) (byteAt r (6 + p.typeByte.val)))
        (be16 (byteAt r (7 + p.typeByte.val)) (byteAt r (8 + p.typeByte.val))) := by
  obtain ⟨long, count, sum, accepted, echoed⟩ := h
  unfold replyVerdict
  rw [if_neg (by omega), if_neg (not_not.mpr count), if_neg (not_not.mpr sum), if_neg (by omega),
    if_neg (not_not.mpr accepted), if_neg (by omega), if_neg (not_not.mpr echoed), if_neg (by omega)]

/-- A verdict past a condition for failure is valid exactly when the condition fails and the rest is valid. -/
theorem ite_failed_eq_valid_iff {P : Prop} [Decidable P] (f : ReplyFailure) (v : ReplyVerdict) (m c : BitVec 16) :
    (if P then .failed f else v) = ReplyVerdict.valid m c ↔ ¬ P ∧ v = .valid m c := by
  by_cases h : P <;> simp [h]

/-- A valid verdict is reached only past every check: each of the others ends in a failure. -/
theorem passes_of_replyVerdict_valid {p : Config.Params} {cid : Byte} {r : List Byte} {m c : BitVec 16}
    (h : replyVerdict p cid r = .valid m c) : ReplyPasses p cid r := by
  simp only [replyVerdict, ite_failed_eq_valid_iff, not_not] at h
  obtain ⟨_, count, sum, _, accepted, _, echoed, long, _⟩ := h
  exact ⟨by omega, count, sum, accepted, echoed⟩

/-- The values of a valid verdict are the two fields, unclamped. -/
theorem toNat_of_replyVerdict_valid {p : Config.Params} {cid : Byte} {r : List Byte} {m c : BitVec 16}
    (h : replyVerdict p cid r = .valid m c) :
    m.toNat = 256 * (byteAt r (5 + p.typeByte.val)).toNat + (byteAt r (6 + p.typeByte.val)).toNat ∧
    c.toNat = 256 * (byteAt r (7 + p.typeByte.val)).toNat + (byteAt r (8 + p.typeByte.val)).toNat := by
  rw [replyVerdict_of_passes (passes_of_replyVerdict_valid h)] at h
  obtain ⟨rfl, rfl⟩ := ReplyVerdict.valid.inj h
  exact ⟨toNat_be16 _ _, toNat_be16 _ _⟩

/-! ### `DECR` on a received reply -/

/-- `DECR` checks the length before it reads the whole reply, and ends there as the verdict on the whole reply does. -/
theorem decrVerdict_of_replyIsIn {p : Config.Setting} {s : State} {r : List Byte} (cid : Byte)
    (h : s.replyIsIn p.rxcap r) : decrVerdict p cid s.rxlen s.rxbuf = .next (replyVerdict p.toParams cid r) := by
  obtain ⟨len, fits, cells⟩ := h
  unfold decrVerdict
  rw [len, if_neg (by omega)]
  by_cases short : r.length < 3
  · rw [if_pos short, replyVerdict, if_pos short]
  have first : readCell p.rxcap s.rxbuf 1 = .ok (byteAt r 1) :=
    (readCell_ok_iff _ _ _ _).mpr ⟨by omega, cells 1 (by omega)⟩
  rw [if_neg short, first]
  by_cases wrong : byteAt r 1 ≠ lenByte (r.length - 3)
  · simp only [if_pos wrong, replyVerdict, if_neg short]
  have all : readCells p.rxcap s.rxbuf 0 r.length = .ok r :=
    readCells_of_cells _ _ r 0 (by omega) fun j hj => by rw [Nat.zero_add, cells j hj]
  simp only [if_neg wrong, all]

/-- `DECR` writes group RR with the verdict on the received reply. -/
theorem exec_decr_of_replyIs {s : State} {r : List Byte} (h : s.replyIs r) :
    exec .decr s = .next (putReply (replyVerdict Config.hw s.cid r) s) := by
  rw [exec_decr_eq, decrVerdict_of_replyIsIn s.cid h, andThen_next]

/-- Group RR shows validity exactly of a valid verdict, with its values. -/
theorem eq_valid_of_putReply_rrValid {v : ReplyVerdict} {s : State} (h : (putReply v s).rrValid = true) :
    v = .valid (putReply v s).rrMax (putReply v s).rrCur := by
  cases v with
  | valid max cur => rfl
  | failed f => cases h

/-! ### The reference echo -/

/-- The last byte of a list with one more byte at its end. -/
theorem byteAt_concat_length (s : List Byte) (b : Byte) : byteAt (s ++ [b]) s.length = b := by
  rw [byteAt, List.getD_append_right _ _ _ _ le_rfl, Nat.sub_self, List.getD_cons_zero]

/-- The head of the echo is nine bytes and the type byte where the setting has one. -/
theorem length_echoHead (p : Config.Params) (typ c : Byte) (m v : BitVec 16) :
    (echoHead p typ c m v).length = 9 + p.typeByte.val := by
  obtain ⟨seed, t⟩ := p
  fin_cases t <;> rfl

/-- The reference echo of a control passes every check for that control (42_ddc_decode.md R135). -/
theorem echoFrame_passes (p : Config.Params) (typ c : Byte) (m v : BitVec 16) :
    ReplyPasses p c (echoFrame p typ c m v) := by
  have len : (echoFrame p typ c m v).length = 9 + p.typeByte.val + 1 := by
    rw [echoFrame, List.length_append, length_echoHead, List.length_singleton]
  refine ⟨by omega, ?count, ?sum, rfl, rfl⟩
  case count => rw [len, show 9 + p.typeByte.val + 1 - 3 = 7 + p.typeByte.val by omega]; rfl
  case sum =>
    rw [len, Nat.add_sub_cancel, ← length_echoHead p typ c m v, echoFrame, byteAt_concat_length, List.take_left]

/-- The reference echo decodes to the maximum and the value it was made of. -/
theorem replyVerdict_echoFrame (p : Config.Params) (typ c : Byte) (m v : BitVec 16) :
    replyVerdict p c (echoFrame p typ c m v) = .valid m v := by
  have fields : ReplyVerdict.valid (be16 (highByte m) (lowByte m)) (be16 (highByte v) (lowByte v)) = .valid m v := by
    rw [be16_highByte_lowByte, be16_highByte_lowByte]
  rw [replyVerdict_of_passes (echoFrame_passes p typ c m v), ← fields]
  obtain ⟨seed, t⟩ := p
  fin_cases t <;> rfl

/-- The reference echo fits in `RXBUF`, T = 0. -/
theorem length_echoFrame_le_rxcap (typ c : Byte) (m v : BitVec 16) :
    (echoFrame Config.hw typ c m v).length ≤ Config.rxcap := rxcap_ge

/-- `DECR` on the host's copy of the reference echo. -/
theorem exec_decr_echoFrame (s : State) (typ : Byte) (m v : BitVec 16) :
    exec .decr (hostWriteReply (echoFrame Config.hw typ s.cid m v) s) =
      .next ((hostWriteReply (echoFrame Config.hw typ s.cid m v) s).setRr true 0 m v) := by
  have verdict := replyVerdict_echoFrame Config.hw typ s.cid m v
  rw [exec_decr_of_replyIs (hostWriteReply_is _ s (length_echoFrame_le_rxcap typ s.cid m v)), hostWriteReply,
    State.setRx_cid, verdict, putReply_valid]

/-- Settles O23: the values of a valid verdict are its two fields, and the reference echo of any pair reaches that pair. -/
theorem extractionIsBigEndian : Obligations.ExtractionIsBigEndian := by
  refine ⟨fun s t r hr ht valid => ?machine, fun _ _ _ _ _ h => toNat_of_replyVerdict_valid h, fun m c => ?reached⟩
  case machine =>
    rw [exec_decr_of_replyIs hr] at ht
    cases ht
    exact toNat_of_replyVerdict_valid (eq_valid_of_putReply_rrValid valid)
  case reached => exact ⟨_, _, exec_decr_echoFrame State.reset 0x00 m c, rfl, rfl, rfl⟩

end Sys2Proof.Machine
end

section
/-! `EDID` on a block it can read: the command leaves its inputs alone, and of the last byte of a block the record holds
`CHECKSUM` alone (44_edid_decode.md R162, R175 to R177). -/

namespace Sys2Proof.Machine

/-! ### Decoding the same buffer again -/

/-- Writing group ED leaves the operand `EDLEN` and the buffer `EDBUF` alone. -/
theorem putEdid_inputs (v : EdidVerdict) (s : State) :
    (putEdid v s).edbuf = s.edbuf ∧ (putEdid v s).edlen = s.edlen := by
  cases v with
  | parsed csum r => exact ⟨rfl, rfl⟩
  | failed f csum => exact ⟨rfl, rfl⟩

/-- `EDID` writes neither of its inputs. -/
theorem edid_inputs {s t : State} (h : exec .edid s = .next t) : t.edbuf = s.edbuf ∧ t.edlen = s.edlen := by
  rw [exec_edid_eq, andThen_eq_next_iff] at h
  obtain ⟨v, _, ⟨⟩⟩ := h
  exact putEdid_inputs v s

/-- Settles O41: the second run has the inputs of the first, and its results depend on them alone. -/
theorem edidIsIdempotent : Obligations.EdidIsIdempotent := by
  intro s t h
  obtain ⟨buf, len⟩ := edid_inputs h
  exact ⟨buf, len, edid_results len buf h⟩

/-! ### `EDID` on an identity block -/

/-- `EDID` writes group ED with the verdict on the block. -/
theorem exec_edid_of_blockIs {s : State} {e : List Byte} (h : s.blockIs e) :
    exec .edid s = .next (putEdid (blockVerdict e) s) := by
  obtain ⟨len, size, cells⟩ := h
  have full : s.edlen.toNat = Config.edidLen := len
  have read : readCells Config.edidLen s.edbuf 0 Config.edidLen = .ok e := by
    have fits : e.length = Config.edidLen := size
    rw [← fits]
    exact readCells_of_cells _ _ e 0 (by omega) fun j hj => by rw [Nat.zero_add, cells j (by omega)]
  have verdict : edidVerdict s.edlen s.edbuf = .next (blockVerdict e) := by
    rw [edidVerdict, full, if_neg (lt_irrefl _), if_neg (lt_irrefl _), read]
  rw [exec_edid_eq, verdict, andThen_next]

/-- With the signature, `EDID` is a structural success whatever the checksum verdict (44_edid_decode.md R161, R162). -/
theorem exec_edid_of_header {s : State} {e : List Byte} (h : s.blockIs e) (header : e.take 8 = Config.edidHeader) :
    exec .edid s = .next (s.setEd true 0 (csumVerdict e) (recordOf e)) := by
  have present : headerPresent e = true := beq_iff_eq.mpr header
  rw [exec_edid_of_blockIs h, blockVerdict, if_pos present, putEdid, acceptEdid_eq]

/-! ### The last byte of a block -/

/-- The bytes before the last are those of the list without it. -/
theorem byteAt_concat_of_lt {p : List Byte} (b : Byte) {j : Nat} (hj : j < p.length) :
    byteAt (p ++ [b]) j = byteAt p j :=
  List.getD_append _ _ _ _ hj

/-- The four descriptor slots end before the last byte of a block. -/
theorem slotOf_concat {p : List Byte} (b : Byte) (size : p.length = 127) (k : Fin 4) :
    slotOf (p ++ [b]) k = slotOf p k := by
  rw [slotOf, slotOf, List.drop_append_of_le_length (by omega),
    List.take_append_of_le_length (by rw [List.length_drop]; omega)]

/-- The eight standard timings end before the last byte of a block. -/
theorem stdTimingOf_concat {p : List Byte} (b : Byte) (size : p.length = 127) (k : Fin 8) :
    stdTimingOf (p ++ [b]) k = stdTimingOf p k := by
  rw [stdTimingOf, stdTimingOf, byteAt_concat_of_lt b (by omega), byteAt_concat_of_lt b (by omega)]

/-- Of the last byte of a block the record holds `CHECKSUM` alone: the other registers come from the bytes before. -/
theorem recordOf_concat {p : List Byte} (b : Byte) (size : p.length = 127) :
    recordOf (p ++ [b]) = { recordOf p with checksum := b } := by
  have before : ∀ j, j < 127 → byteAt (p ++ [b]) j = byteAt p j := fun _ hj => byteAt_concat_of_lt b (by omega)
  have last : byteAt (p ++ [b]) 127 = b := by rw [← size, byteAt_concat_length]
  simp (disch := decide) only [recordOf, mfgWord, before, last, slotOf_concat b size, stdTimingOf_concat b size]

/-- Two blocks that differ in their last byte differ in their sum. -/
theorem sum8_concat_inj (p : List Byte) {b b' : Byte} : sum8 (p ++ [b']) = sum8 (p ++ [b]) ↔ b' = b := by
  rw [sum8_concat, sum8_concat, add_right_inj]

/-- Settles O42: both blocks have the signature, only one of the two sums is zero, and the last byte is `CHECKSUM`. -/
theorem finalByteFlipsOnlyTheVerdict : Obligations.FinalByteFlipsOnlyTheVerdict := by
  intro s s' p b b' size header sum changed block block'
  have signature : ∀ c : Byte, (p ++ [c]).take 8 = Config.edidHeader := fun c => by
    rw [List.take_append_of_le_length (by omega), header]
  have right : csumVerdict (p ++ [b]) = true := beq_iff_eq.mpr sum
  have wrong : csumVerdict (p ++ [b']) = false :=
    beq_eq_false_iff_ne.mpr fun zero => changed ((sum8_concat_inj p).mp (zero.trans sum.symm))
  refine ⟨_, _, exec_edid_of_header block (signature b), exec_edid_of_header block' (signature b'), rfl, rfl, right,
    wrong, ?record⟩
  case record => rw [State.setEd_record, State.setEd_record, recordOf_concat b size, recordOf_concat b' size]

end Sys2Proof.Machine
end

section
/-! The decoder and the encoder are inverse to each other, port by port; on a slot port they are so exactly on the
well-formed rows (30_encoding.md R70, R74 to R76, R90, R94). -/

namespace Sys2Proof

open Sys2Proof.Machine

/-! ### The slot ports -/

/-- The first bytes of a list and what follows them make up the list. -/
theorem append_drop_of_take_eq {s front : List Byte} {n : Nat} (h : s.take n = front) : front ++ s.drop n = s := by
  rw [← h, List.take_append_drop]

/-- What follows a four-byte tag in a slot is a 14-byte body. -/
theorem length_drop_four {s : List Byte} (h : s.length = 18) : (s.drop 4).length = 14 := by
  rw [List.length_drop, h]

/-- The constraints of the row `SLOT_UNUSED_OTHER` as propositions. -/
theorem wellFormed_slotUnusedOther_iff (k : Fin 4) (body : List Byte) :
    Instr.wellFormed (.slotUnusedOther k body) = true ↔
      body.length = 16 ∧ body ≠ List.replicate 16 0x00 ∧ (byteAt body 0 = 0x00 → byteAt body 1 ∉ knownTags) := by
  simp only [Instr.wellFormed, Instr.wellFormedAt, Bool.and_eq_true, beq_iff_eq, bne_iff_ne, Bool.not_eq_true',
    Bool.and_eq_false_iff, beq_eq_false_iff_ne, List.contains_eq_mem, decide_eq_false_iff_not, ← imp_iff_not_or,
    and_assoc]

/-- The constraints of the row `SLOT_DTD` as propositions. -/
theorem wellFormed_slotDtd_iff (k : Fin 4) (body : List Byte) :
    Instr.wellFormed (.slotDtd k body) = true ↔
      body.length = 18 ∧ (byteAt body 0 = 0x00 → byteAt body 1 ≠ 0x00) ∧ body ≠ List.replicate 18 0xFF := by
  simp only [Instr.wellFormed, Instr.wellFormedAt, Bool.and_eq_true, beq_iff_eq, bne_iff_ne, Bool.not_eq_true',
    Bool.and_eq_false_iff, beq_eq_false_iff_ne, ← imp_iff_not_or, and_assoc]

/-- A slot begins with two given bytes exactly when its bytes 0 and 1 are these. -/
theorem take_two_eq_iff {s : List Byte} (h : 2 ≤ s.length) (a b : Byte) :
    s.take 2 = [a, b] ↔ byteAt s 0 = a ∧ byteAt s 1 = b := by
  match s, h with
  | x :: y :: rest, _ => simp [byteAt]

/-- A slot begins with four given bytes exactly when its bytes 0 to 3 are these. -/
theorem take_four_eq_iff {s : List Byte} (h : 4 ≤ s.length) (a b c d : Byte) :
    s.take 4 = [a, b, c, d] ↔ byteAt s 0 = a ∧ byteAt s 1 = b ∧ byteAt s 2 = c ∧ byteAt s 3 = d := by
  match s, h with
  | x :: y :: z :: w :: rest, _ => simp [byteAt]

/-- A slot that begins with two zeros and that no earlier row claims meets the constraints of `SLOT_UNUSED_OTHER`. -/
theorem wellFormed_slotUnusedOther {k : Fin 4} {s : List Byte} (size : s.length = 18) (front : s.take 2 = [0x00, 0x00])
    (notZero : s ≠ List.replicate 18 0x00) (untagged : ∀ tag ∈ knownTags, s.take 4 ≠ [0x00, 0x00, 0x00, tag]) :
    Instr.wellFormed (.slotUnusedOther k (s.drop 2)) = true := by
  obtain ⟨body, rfl⟩ : ∃ body, s = [0x00, 0x00] ++ body := ⟨_, (append_drop_of_take_eq front).symm⟩
  have len : body.length = 16 := Nat.succ.inj (Nat.succ.inj size)
  refine (wellFormed_slotUnusedOther_iff k body).mpr ⟨len, fun h => ?zero, fun guard tag => ?tag⟩
  case zero => exact notZero (by rw [h]; rfl)
  case tag => exact untagged _ tag ((take_four_eq_iff (by omega) _ _ _ _).mpr ⟨rfl, rfl, guard, rfl⟩)

/-- Whatever a slot port decodes is well formed and encodes to the bytes it was decoded from. -/
theorem encode_of_decodeSlot {k : Fin 4} {s : List Byte} {i : Instr} (h : decodeSlot k s = .ok i) :
    encode i = (.slot k, s) ∧ i.wellFormed = true := by
  unfold decodeSlot at h
  split at h
  case isTrue => cases h
  rename_i size
  have size : s.length = 18 := not_not.mp size
  have tagged : ∀ {tag : Byte}, s.take 4 = [0x00, 0x00, 0x00, tag] →
      (Port.slot k, [0x00, 0x00, 0x00, tag] ++ s.drop 4) = (.slot k, s) ∧ ((s.drop 4).length == 14) = true :=
    fun front => ⟨congrArg _ (append_drop_of_take_eq front), beq_iff_eq.mpr (length_drop_four size)⟩
  split at h
  case isTrue zero => cases h; exact ⟨congrArg _ zero.symm, rfl⟩
  split at h
  case isTrue ones => cases h; exact ⟨congrArg _ ones.symm, rfl⟩
  split at h
  case isTrue front => cases h; exact tagged front
  split at h
  case isTrue front => cases h; exact tagged front
  split at h
  case isTrue front => cases h; exact tagged front
  split at h
  case isTrue front => cases h; exact tagged front
  split at h
  case isTrue front => cases h; exact tagged front
  split at h
  case isTrue front =>
    cases h
    refine ⟨congrArg _ (append_drop_of_take_eq front), wellFormed_slotUnusedOther size front ‹_› ?_⟩
    simp only [knownTags, List.forall_mem_cons]
    exact ⟨‹_›, ‹_›, ‹_›, ‹_›, ‹_›, by simp⟩
  case isFalse front =>
    cases h
    have clock : byteAt s 0 = 0x00 → byteAt s 1 ≠ 0x00 := fun h0 h1 =>
      front ((take_two_eq_iff (by omega) _ _).mpr ⟨h0, h1⟩)
    exact ⟨rfl, (wellFormed_slotDtd_iff k s).mpr ⟨size, clock, ‹_›⟩⟩

/-- A slot whose clock field is not zero is none of the rows that begin with two zeros. -/
theorem decodeSlot_of_clock {k : Fin 4} {s : List Byte} (size : s.length = 18) (clock : s.take 2 ≠ [0x00, 0x00])
    (notOnes : s ≠ List.replicate 18 0xFF) : decodeSlot k s = .ok (.slotDtd k s) := by
  have notZero : s ≠ List.replicate 18 0x00 := fun h => clock (by rw [h]; rfl)
  have untagged : ∀ tag, s.take 4 ≠ [0x00, 0x00, 0x00, tag] := fun tag h => clock (by
    rw [show s.take 2 = (s.take 4).take 2 by simp [List.take_take], h]; rfl)
  simp only [decodeSlot, size, notZero, notOnes, untagged, clock, ne_eq, not_true_eq_false, if_false]

/-- A slot that begins with two zeros and that no earlier row claims is an unused one. -/
theorem decodeSlot_of_untagged {k : Fin 4} {body : List Byte} (size : body.length = 16)
    (notZero : body ≠ List.replicate 16 0x00) (untagged : byteAt body 0 = 0x00 → byteAt body 1 ∉ knownTags) :
    decodeSlot k ([0x00, 0x00] ++ body) = .ok (.slotUnusedOther k body) := by
  have len : ([0x00, 0x00] ++ body).length = 18 := congrArg (· + 2) size
  have notZero' : [0x00, 0x00] ++ body ≠ List.replicate 18 0x00 := fun h => notZero (congrArg (List.drop 2) h)
  have notOnes : [0x00, 0x00] ++ body ≠ List.replicate 18 0xFF := fun h => by
    have first : (0x00 : Byte) = 0xFF := congrArg (byteAt · 0) h
    exact absurd first (by decide)
  have untagged' : ∀ tag ∈ knownTags, ([0x00, 0x00] ++ body).take 4 ≠ [0x00, 0x00, 0x00, tag] := fun tag known h => by
    obtain ⟨_, _, guard, rfl⟩ := (take_four_eq_iff (by omega) _ _ _ _).mp h
    exact untagged guard known
  simp only [knownTags, List.forall_mem_cons] at untagged'
  obtain ⟨ff, fe, fd, fc, fb, _⟩ := untagged'
  unfold decodeSlot
  rw [if_neg (not_not.mpr len), if_neg notZero', if_neg notOnes, if_neg ff, if_neg fe, if_neg fd, if_neg fc, if_neg fb]
  rfl

/-- Every well-formed slot row is decoded from its own bytes: no earlier row of the table claims them. -/
theorem decodeSlot_of_encode {k : Fin 4} {s : List Byte} {i : Instr} (enc : encode i = (.slot k, s))
    (wf : i.wellFormed = true) : decodeSlot k s = .ok i := by
  cases i with
  | encw | encr | decr | edid | frameW | frameR | frameP => cases enc
  | slotUnusedZero | slotUnusedOnes => cases enc; rfl
  | slotTextSerial | slotTextComment | slotRange | slotTextName | slotWhite =>
    cases enc
    have len := beq_iff_eq.mp wf
    simp [decodeSlot, len, List.replicate_succ]
  | slotUnusedOther =>
    cases enc
    obtain ⟨size, notZero, untagged⟩ := (wellFormed_slotUnusedOther_iff _ _).mp wf
    exact decodeSlot_of_untagged size notZero untagged
  | slotDtd =>
    cases enc
    obtain ⟨size, clock, notOnes⟩ := (wellFormed_slotDtd_iff _ _).mp wf
    refine decodeSlot_of_clock size (fun h => ?_) notOnes
    obtain ⟨h0, h1⟩ := (take_two_eq_iff (by omega) _ _).mp h
    exact clock h0 h1

/-- Any 18 bytes are a slot row: the last row takes what the others leave. -/
theorem decodeSlot_total (k : Fin 4) {s : List Byte} (size : s.length = 18) : ∃ i, decodeSlot k s = .ok i := by
  unfold decodeSlot
  rw [if_neg (not_not.mpr size)]
  repeat' split
  all_goals exact ⟨_, rfl⟩

/-! ### The command port, the request port and the reply port -/

/-- `CMD` and the four commands number each other. -/
theorem encode_of_decodeCommand {bs : List Byte} {i : Instr} (h : decodeCommand bs = .ok i) :
    encode i = (.command, bs) := by
  unfold decodeCommand at h
  split at h
  case h_2 => cases h
  split at h
  case isTrue cmd => cases h; rw [cmd]; rfl
  split at h
  case isTrue cmd => cases h; rw [cmd]; rfl
  split at h
  case isTrue cmd => cases h; rw [cmd]; rfl
  split at h
  case isTrue cmd => cases h; rw [cmd]; rfl
  cases h

/-- The first three bytes and the length of a request give the row, the others its operands. -/
theorem encode_of_decodeRequest {bs : List Byte} {i : Instr} (h : decodeRequest bs = .ok i) :
    encode i = (.request, bs) := by
  unfold decodeRequest at h
  split at h
  case h_1 =>
    split at h <;> cases h
    rename_i front
    cases front
    rfl
  case h_2 =>
    split at h <;> cases h
    rename_i front
    cases front
    rfl
  case h_3 => cases h

/-- The type byte and what follows it make up the bytes they were split from. -/
theorem splitType_append (t : Nat) (rest : List Byte) : (splitType t rest).1.toList ++ (splitType t rest).2 = rest := by
  unfold splitType
  split
  · cases rest <;> rfl
  · rfl

/-- A type byte where the setting has one, and none where it has none, is split off again. -/
theorem splitType_of_isSome {p : Config.Params} {typ : Option Byte} (h : typ.isSome = (p.typeByte == 1))
    (rest : List Byte) : splitType p.typeByte.val (typ.toList ++ rest) = (typ, rest) := by
  obtain ⟨seed, t⟩ := p
  fin_cases t
  · obtain rfl : typ = none := by simpa using h
    rfl
  · obtain ⟨b, rfl⟩ := Option.isSome_iff_exists.mp h
    rfl

/-- A reply row takes in every byte of the frame it is decoded from. -/
theorem encode_of_decodeReply {p : Config.Params} {bs : List Byte} {i : Instr} (h : decodeReply p bs = .ok i) :
    encode i = (.reply, bs) := by
  unfold decodeReply at h
  split at h
  case h_2 => cases h
  rename_i rsrc len ropc rc echo rest
  split at h
  case isFalse => cases h
  rename_i flag
  obtain ⟨flag, rfl⟩ := flag
  split at h
  case h_2 => cases h
  rename_i typ mh ml sh sl tail split_eq
  split at h
  case h_2 => cases h
  rename_i chk last
  cases h
  have rest_eq : typ.toList ++ (mh :: ml :: sh :: sl :: tail) = rest := by
    have := splitType_append p.typeByte.val rest
    rwa [split_eq] at this
  have tail_eq : tail.dropLast ++ [chk] = tail := List.dropLast_append_getLast? _ last
  rw [encode, replyBytes, lenByte_bits len flag, ← rest_eq]
  conv_rhs => rw [← tail_eq]
  simp

/-- A reply row with a type byte exactly where the setting has one is decoded from its frame. -/
theorem decodeReply_replyBytes {p : Config.Params} {typ : Option Byte} (h : typ.isSome = (p.typeByte == 1))
    (rsrc : Byte) (count : BitVec 7) (ropc echo mh ml sh sl : Byte) (extra : List Byte) (chk : Byte) :
    decodeReply p (replyBytes rsrc count ropc echo typ mh ml sh sl extra chk) =
      .ok (.frameP rsrc count ropc echo typ mh ml sh sl extra chk) := by
  have frame : replyBytes rsrc count ropc echo typ mh ml sh sl extra chk =
      rsrc :: lenByte count.toNat :: ropc :: Config.rcOk :: echo ::
        (typ.toList ++ (mh :: ml :: sh :: sl :: (extra ++ [chk]))) := by
    simp [replyBytes]
  obtain ⟨field, flag⟩ := bits_lenByte count
  simp only [frame, decodeReply, flag, field, splitType_of_isSome h, List.getLast?_concat, List.dropLast_concat,
    and_self, if_true]

/-! ### All ports -/

/-- Whatever a port decodes encodes to the bytes it was decoded from, on that port. -/
theorem encode_of_decodeAt {p : Config.Params} {port : Port} {bs : List Byte} {i : Instr}
    (h : decodeAt p port bs = .ok i) : encode i = (port, bs) := by
  cases port with
  | command => exact encode_of_decodeCommand h
  | request => exact encode_of_decodeRequest h
  | reply => exact encode_of_decodeReply h
  | slot k => exact (encode_of_decodeSlot h).1

/-- A well-formed row is decoded from its encoding, at every setting of the reply parameters. -/
theorem decodeAt_encode {p : Config.Params} {i : Instr} (wf : i.wellFormedAt p = true) :
    decodeAt p (encode i).1 (encode i).2 = .ok i := by
  cases i with
  | encw | encr | decr | edid => rfl
  | frameW | frameR => rfl
  | frameP rsrc count ropc echo typ mh ml sh sl extra chk =>
    simp only [Instr.wellFormedAt, Bool.and_eq_true, beq_iff_eq] at wf
    obtain ⟨⟨typed, _⟩, _⟩ := wf
    exact decodeReply_replyBytes typed ..
  | slotUnusedZero | slotUnusedOnes | slotTextSerial | slotTextComment | slotRange | slotTextName | slotWhite
  | slotUnusedOther | slotDtd => exact decodeSlot_of_encode rfl wf

/-- Settles O1: each row is decoded from its own bytes; this hardware's setting is one of the settings. -/
theorem decodeOfEncodeIsIdentity : Obligations.DecodeOfEncodeIsIdentity :=
  ⟨fun _ => decodeAt_encode, fun _ _ => decodeAt_encode⟩

/-- Settles O2: no port's decoder drops a bit. -/
theorem encodeOfDecodeIsIdentity : Obligations.EncodeOfDecodeIsIdentity :=
  ⟨fun _ _ _ => encode_of_decodeAt, fun _ _ _ _ => encode_of_decodeAt⟩

/-- Settles O3: the last slot row takes what the others leave, and what a slot port decodes is well formed. -/
theorem everySlotContentDecodes : Obligations.EverySlotContentDecodes := by
  intro k bs size
  obtain ⟨i, h⟩ := decodeSlot_total k size
  exact ⟨i, h, (encode_of_decodeSlot h).2⟩

/-- Settles O4: each word is the encoding of its row, which is well formed. -/
theorem sampleWordsDecode : Obligations.SampleWordsDecode := by
  have word : ∀ {i : Instr}, i.wellFormed = true → decode (encode i).1 (encode i).2 = .ok i := decodeAt_encode
  exact ⟨word (i := .edid) rfl, word (i := .frameW 0x10 0x00 0x32 0x9A) (by decide),
    word (i := .frameR 0x10 0xAC) (by decide),
    word (i := .frameP 0x6E 7 0x02 0x10 none 0x00 0x64 0x00 0x32 [] 0xC3) (by decide),
    word (i := .slotWhite 1 (List.replicate 14 0x07)) (by decide)⟩

end Sys2Proof
end

section
/-! The bit fields of the spec as numbers: a field of a byte is a quotient and a remainder, and a value put together by
shifts is a sum (20_memory.md R52, 30_encoding.md R78 to R84). -/

namespace Sys2Proof.Machine

/-- `b[hi:lo]` as a number. -/
theorem toNat_bits (b : Byte) (lo n : Nat) : (bits b lo n).toNat = b.toNat / 2 ^ lo % 2 ^ n := by
  rw [bits, BitVec.extractLsb'_toNat, Nat.shiftRight_eq_div_pow]

/-- `b[i]` as a number. -/
theorem toNat_bit (b : Byte) (i : Nat) : (bit b i).toNat = b.toNat / 2 ^ i % 2 := Nat.toNat_testBit b.toNat i

/-- A value shifted up past a lower one, joined with it, is their sum: no bit is shifted out and none overlaps. -/
theorem toNat_shiftLeft_or {n k : Nat} (hi lo : BitVec n) (low : lo.toNat < 2 ^ k) (fits : hi.toNat * 2 ^ k < 2 ^ n) :
    (hi <<< k ||| lo).toNat = 2 ^ k * hi.toNat + lo.toNat := by
  rw [BitVec.toNat_or, BitVec.toNat_shiftLeft, Nat.shiftLeft_eq, Nat.mod_eq_of_lt fits, mul_comm,
    Nat.two_pow_add_eq_or_of_lt low]

/-- The same for two fields widened first: the lower one has as many bits as the upper one is shifted by. -/
theorem toNat_widen_shiftLeft_or {a k n : Nat} (hi : BitVec a) (lo : BitVec k) (wide : a + k ≤ n) :
    (hi.setWidth n <<< k ||| lo.setWidth n).toNat = 2 ^ k * hi.toNat + lo.toNat := by
  have hiWide : (hi.setWidth n).toNat = hi.toNat := BitVec.toNat_setWidth_of_le (by omega)
  have loWide : (lo.setWidth n).toNat = lo.toNat := BitVec.toNat_setWidth_of_le (by omega)
  have fits : hi.toNat * 2 ^ k < 2 ^ n := calc
    hi.toNat * 2 ^ k < 2 ^ a * 2 ^ k := Nat.mul_lt_mul_of_pos_right hi.isLt (Nat.two_pow_pos k)
    _ = 2 ^ (a + k) := (Nat.pow_add 2 a k).symm
    _ ≤ 2 ^ n := Nat.pow_le_pow_right (by decide) wide
  rw [toNat_shiftLeft_or _ _ (loWide ▸ lo.isLt) (hiWide.symm ▸ fits), hiWide, loWide]

theorem toNat_split12 (nibble : BitVec 4) (low : Byte) : (split12 nibble low).toNat = 256 * nibble.toNat + low.toNat :=
  toNat_widen_shiftLeft_or nibble low (by decide)

theorem toNat_split10 (pair : BitVec 2) (low : Byte) : (split10 pair low).toNat = 256 * pair.toNat + low.toNat :=
  toNat_widen_shiftLeft_or pair low (by decide)

theorem toNat_split6 (pair : BitVec 2) (nibble : BitVec 4) :
    (split6 pair nibble).toNat = 16 * pair.toNat + nibble.toNat :=
  toNat_widen_shiftLeft_or pair nibble (by decide)

theorem toNat_chroma10 (msb : Byte) (lsb : BitVec 2) : (chroma10 msb lsb).toNat = 4 * msb.toNat + lsb.toNat :=
  toNat_widen_shiftLeft_or msb lsb (by decide)

theorem toNat_le16 (lo hi : Byte) : (le16 lo hi).toNat = lo.toNat + 256 * hi.toNat := by
  rw [le16, BitVec.or_comm, toNat_widen_shiftLeft_or hi lo (by decide), add_comm]
  rfl

theorem toNat_cat3 (hi : BitVec 2) (lo : BitVec 1) : (cat3 hi lo).toNat = 2 * hi.toNat + lo.toNat := by
  rw [cat3, BitVec.toNat_append, ← Nat.shiftLeft_add_eq_or_of_lt lo.isLt, Nat.shiftLeft_eq, mul_comm]

/-- Bytes joined from the most significant one down. -/
theorem toNat_be24 (b0 b1 b2 : Byte) : (be24 b0 b1 b2).toNat = 65536 * b0.toNat + 256 * b1.toNat + b2.toNat := by
  have low := toNat_widen_shiftLeft_or (n := 24) b1 b2 (by decide)
  have top : (b0.setWidth 24).toNat = b0.toNat := BitVec.toNat_setWidth_of_le (by decide)
  have h0 := b0.isLt
  have h1 := b1.isLt
  have h2 := b2.isLt
  rw [be24, BitVec.or_assoc, toNat_shiftLeft_or _ _ (by omega) (by omega), low, top]
  omega

/-- Bytes joined from the least significant one up. -/
theorem toNat_le32 (b0 b1 b2 b3 : Byte) :
    (le32 b0 b1 b2 b3).toNat = b0.toNat + 256 * b1.toNat + 65536 * b2.toNat + 16777216 * b3.toNat := by
  have low := toNat_widen_shiftLeft_or (n := 32) b1 b0 (by decide)
  have mid : (b2.setWidth 32).toNat = b2.toNat := BitVec.toNat_setWidth_of_le (by decide)
  have top : (b3.setWidth 32).toNat = b3.toNat := BitVec.toNat_setWidth_of_le (by decide)
  have h0 := b0.isLt
  have h1 := b1.isLt
  have h2 := b2.isLt
  have h3 := b3.isLt
  have three := toNat_shiftLeft_or (k := 16) (b2.setWidth 32) (b1.setWidth 32 <<< 8 ||| b0.setWidth 32) (by omega)
    (by omega)
  rw [le32, BitVec.or_comm (b0.setWidth 32), BitVec.or_comm _ (b2.setWidth 32 <<< 16),
    BitVec.or_comm _ (b3.setWidth 32 <<< 24), toNat_shiftLeft_or _ _ (by omega) (by omega), three, low, mid, top]
  omega

end Sys2Proof.Machine
end

section
/-! The descriptor slots: the selector's tests on the bytes of a slot, each slot row as a write of the selector's
descriptor, and the fields of each variant (45_edid_descriptors.md R201 to R208). -/

namespace Sys2Proof.Machine

/-! ### The bytes of a slot -/

/-- A byte past a two-byte or four-byte front is a byte of the body. -/
theorem byteAt_append_right {front body : List Byte} {j : Nat} (h : front.length ≤ j) :
    byteAt (front ++ body) j = byteAt body (j - front.length) :=
  List.getD_append_right _ _ _ _ h

/-- From an index on, a list is the byte there and what follows it. -/
theorem drop_eq_byteAt_cons {s : List Byte} {j : Nat} (h : j < s.length) :
    s.drop j = byteAt s j :: s.drop (j + 1) := by
  rw [List.drop_eq_getElem_cons h, byteAt, List.getD_eq_getElem _ _ h]

@[simp] theorem getElem_bytesAt (s : List Byte) (j n : Nat) {i : Nat} (h : i < n) :
    (bytesAt s j n)[i] = byteAt s (j + i) := by
  simp [bytesAt]

/-- An array field that ends with its list is the rest of the list. -/
theorem toList_bytesAt {s : List Byte} {j n : Nat} (h : j + n = s.length) : (bytesAt s j n).toList = s.drop j := by
  apply List.ext_getElem
  · rw [Vector.length_toList, List.length_drop]
    omega
  · intro i h1 h2
    rw [List.length_drop] at h2
    rw [List.getElem_drop, Vector.getElem_toList, getElem_bytesAt, byteAt, List.getD_eq_getElem _ _ (by omega)]

/-! ### The selector -/

/-- The first test of R201: 18 bytes 0x00 or 18 bytes 0xFF. -/
abbrev SlotEmpty (d : List Byte) : Prop := d = List.replicate 18 0x00 ∨ d = List.replicate 18 0xFF

/-- All bytes of a slot are b exactly when it is 18 times b. -/
theorem all_eq_iff_eq_replicate {d : List Byte} (size : d.length = 18) (b : Byte) :
    (d.all fun x => x == b) = true ↔ d = List.replicate 18 b := by
  simp only [List.all_eq_true, beq_iff_eq, List.eq_replicate_iff, size, true_and]

/-- What the tag byte of a display descriptor chooses (45_edid_descriptors.md R201). -/
def tagDesc (d : List Byte) : Desc :=
  if byteAt d 3 = 0xFF then textOf .serial d
  else if byteAt d 3 = 0xFE then textOf .comment d
  else if byteAt d 3 = 0xFD then .range (rangeOf d)
  else if byteAt d 3 = 0xFC then textOf .name d
  else if byteAt d 3 = 0xFB then whiteOf d
  else .unused

/-- The selector's first test on 18 bytes, and the others after it. -/
theorem slotDesc_eq {d : List Byte} (size : d.length = 18) :
    slotDesc d =
      if SlotEmpty d then .unused
      else if byteAt d 0 ≠ 0x00 ∨ byteAt d 1 ≠ 0x00 then .dtd (dtdOf d)
      else if byteAt d 2 ≠ 0x00 then .unused
      else tagDesc d := by
  have empty : ((d.all fun b => b == 0x00) || (d.all fun b => b == 0xFF)) = true ↔ SlotEmpty d := by
    rw [Bool.or_eq_true, all_eq_iff_eq_replicate size, all_eq_iff_eq_replicate size, SlotEmpty]
  unfold slotDesc
  by_cases h : SlotEmpty d
  · rw [if_pos (empty.mpr h), if_pos h]
  · rw [if_neg (empty.not.mpr h), if_neg h]
    rfl

theorem slotDesc_of_empty {d : List Byte} (size : d.length = 18) (empty : SlotEmpty d) : slotDesc d = .unused := by
  rw [slotDesc_eq size, if_pos empty]

theorem slotDesc_of_clock {d : List Byte} (size : d.length = 18) (full : ¬ SlotEmpty d)
    (clock : byteAt d 0 ≠ 0x00 ∨ byteAt d 1 ≠ 0x00) : slotDesc d = .dtd (dtdOf d) := by
  rw [slotDesc_eq size, if_neg full, if_pos clock]

theorem slotDesc_of_guard {d : List Byte} (size : d.length = 18) (full : ¬ SlotEmpty d)
    (noClock : ¬ (byteAt d 0 ≠ 0x00 ∨ byteAt d 1 ≠ 0x00)) (guarded : byteAt d 2 ≠ 0x00) : slotDesc d = .unused := by
  rw [slotDesc_eq size, if_neg full, if_neg noClock, if_pos guarded]

theorem slotDesc_of_tagged {d : List Byte} (size : d.length = 18)
    (tagged : ¬ SlotEmpty d ∧ ¬ (byteAt d 0 ≠ 0x00 ∨ byteAt d 1 ≠ 0x00) ∧ byteAt d 2 = 0x00) :
    slotDesc d = tagDesc d := by
  obtain ⟨full, noClock, unguarded⟩ := tagged
  rw [slotDesc_eq size, if_neg full, if_neg noClock, if_neg (not_not.mpr unguarded)]

theorem tagDesc_serial {d : List Byte} (tag : byteAt d 3 = 0xFF) : tagDesc d = textOf .serial d := if_pos tag

theorem tagDesc_comment {d : List Byte} (tag : byteAt d 3 = 0xFE) : tagDesc d = textOf .comment d := by
  simp [tagDesc, tag]

theorem tagDesc_range {d : List Byte} (tag : byteAt d 3 = 0xFD) : tagDesc d = .range (rangeOf d) := by
  simp [tagDesc, tag]

theorem tagDesc_name {d : List Byte} (tag : byteAt d 3 = 0xFC) : tagDesc d = textOf .name d := by
  simp [tagDesc, tag]

theorem tagDesc_white {d : List Byte} (tag : byteAt d 3 = 0xFB) : tagDesc d = whiteOf d := by
  simp [tagDesc, tag]

/-- A tag that is none of the five chooses nothing. -/
theorem tagDesc_unknown {d : List Byte} (tag : byteAt d 3 ∉ knownTags) : tagDesc d = .unused := by
  simp only [knownTags, List.mem_cons, List.not_mem_nil, or_false, not_or] at tag
  obtain ⟨ff, fe, fd, fc, fb⟩ := tag
  rw [tagDesc, if_neg ff, if_neg fe, if_neg fd, if_neg fc, if_neg fb]

/-- The five tags are the five greatest bytes. -/
theorem not_mem_knownTags_of_lt {b : Byte} (h : b.toNat < 0xFB) : b ∉ knownTags := by
  simp only [knownTags, List.mem_cons, List.not_mem_nil, or_false, not_or]
  refine ⟨?_, ?_, ?_, ?_, ?_⟩ <;> rintro rfl <;> exact absurd h (by decide)

/-- Settles O43: the selector's branches, each under the tests before it. -/
theorem selectorFollowsTheTests : Obligations.SelectorFollowsTheTests := by
  intro d size
  exact ⟨slotDesc_of_empty size, slotDesc_of_clock size, slotDesc_of_guard size,
    fun tagged tag => (slotDesc_of_tagged size tagged).trans (tagDesc_serial tag),
    fun tagged tag => (slotDesc_of_tagged size tagged).trans (tagDesc_comment tag),
    fun tagged tag => (slotDesc_of_tagged size tagged).trans (tagDesc_range tag),
    fun tagged tag => (slotDesc_of_tagged size tagged).trans (tagDesc_name tag),
    fun tagged tag => (slotDesc_of_tagged size tagged).trans (tagDesc_white tag),
    fun tagged tag => (slotDesc_of_tagged size tagged).trans (tagDesc_unknown (not_mem_knownTags_of_lt tag))⟩

/-! ### The slot rows run -/

/-- Three zeros and a tag above zero are the front of a display descriptor. -/
theorem tagged_append {tag : Byte} (body : List Byte) (above : tag ≠ 0x00) :
    ¬ SlotEmpty ([0x00, 0x00, 0x00, tag] ++ body) ∧
      ¬ (byteAt ([0x00, 0x00, 0x00, tag] ++ body) 0 ≠ 0x00 ∨ byteAt ([0x00, 0x00, 0x00, tag] ++ body) 1 ≠ 0x00) ∧
      byteAt ([0x00, 0x00, 0x00, tag] ++ body) 2 = 0x00 := by
  refine ⟨?full, by simp [byteAt], rfl⟩
  rintro (zero | ones)
  · exact above (congrArg (byteAt · 3) zero)
  · have first : (0x00 : Byte) = 0xFF := congrArg (byteAt · 0) ones
    exact absurd first (by decide)

/-- The selector on a tagged slot is the tag's choice. -/
theorem slotDesc_tag_append {tag : Byte} {body : List Byte} (size : body.length = 14) (above : tag ≠ 0x00) :
    slotDesc ([0x00, 0x00, 0x00, tag] ++ body) = tagDesc ([0x00, 0x00, 0x00, tag] ++ body) :=
  slotDesc_of_tagged (congrArg (· + 4) size) (tagged_append body above)

/-- The selector on a slot that begins with two zeros and has no known tag. -/
theorem slotDesc_untagged {body : List Byte} (size : body.length = 16)
    (untagged : byteAt body 0 = 0x00 → byteAt body 1 ∉ knownTags) : slotDesc ([0x00, 0x00] ++ body) = .unused := by
  have len : ([0x00, 0x00] ++ body).length = 18 := congrArg (· + 2) size
  have noClock : ¬ (byteAt ([0x00, 0x00] ++ body) 0 ≠ 0x00 ∨ byteAt ([0x00, 0x00] ++ body) 1 ≠ 0x00) := by simp [byteAt]
  by_cases empty : SlotEmpty ([0x00, 0x00] ++ body)
  · exact slotDesc_of_empty len empty
  by_cases guard : byteAt body 0 = 0x00
  · rw [slotDesc_of_tagged len ⟨empty, noClock, guard⟩]
    exact tagDesc_unknown (untagged guard)
  · exact slotDesc_of_guard len empty noClock guard

/-- The selector on a slot with a clock field. -/
theorem slotDesc_timing {d : List Byte} (size : d.length = 18) (clock : byteAt d 0 = 0x00 → byteAt d 1 ≠ 0x00)
    (notOnes : d ≠ List.replicate 18 0xFF) : slotDesc d = .dtd (dtdOf d) := by
  refine slotDesc_of_clock size ?_ (imp_iff_not_or.mp clock)
  rintro (rfl | ones)
  · exact clock rfl rfl
  · exact notOnes ones

/-- A well-formed slot row puts the selector's descriptor of its bytes in `DESC[k]`. -/
theorem exec_slot_row {i : Instr} {k : Fin 4} {d : List Byte} (enc : encode i = (.slot k, d)) (wf : i.wellFormed = true)
    (s : State) : exec i s = .next (putDesc k (slotDesc d) s) := by
  cases i with
  | encw | encr | decr | edid | frameW | frameR | frameP => cases enc
  | slotUnusedZero => cases enc; rw [slotDesc_of_empty rfl (.inl rfl)]; rfl
  | slotUnusedOnes => cases enc; rw [slotDesc_of_empty rfl (.inr rfl)]; rfl
  | slotTextSerial => cases enc; rw [slotDesc_tag_append (beq_iff_eq.mp wf) (by decide), tagDesc_serial rfl]; rfl
  | slotTextComment => cases enc; rw [slotDesc_tag_append (beq_iff_eq.mp wf) (by decide), tagDesc_comment rfl]; rfl
  | slotRange => cases enc; rw [slotDesc_tag_append (beq_iff_eq.mp wf) (by decide), tagDesc_range rfl]; rfl
  | slotTextName => cases enc; rw [slotDesc_tag_append (beq_iff_eq.mp wf) (by decide), tagDesc_name rfl]; rfl
  | slotWhite => cases enc; rw [slotDesc_tag_append (beq_iff_eq.mp wf) (by decide), tagDesc_white rfl]; rfl
  | slotUnusedOther =>
    cases enc
    obtain ⟨size, _, untagged⟩ := (wellFormed_slotUnusedOther_iff _ _).mp wf
    rw [slotDesc_untagged size untagged]
    rfl
  | slotDtd =>
    cases enc
    obtain ⟨size, clock, notOnes⟩ := (wellFormed_slotDtd_iff _ _).mp wf
    rw [slotDesc_timing size clock notOnes]
    rfl

@[simp] theorem putDesc_desc_same (k : Fin 4) (d : Desc) (s : State) : (putDesc k d s).record.desc[k] = d :=
  Vector.getElem_set_self _

/-- Writing one descriptor register leaves everything else alone. -/
theorem onlyDesc_putDesc (k : Fin 4) (d : Desc) (s : State) : s.onlyDesc (putDesc k d s) k :=
  ⟨rfl, fun j other => Vector.getElem_set_ne k.isLt j.isLt fun same => other (Fin.ext same.symm)⟩

/-- Settles O44: what a slot port decodes is a well-formed slot row, and such a row writes the selector's descriptor. -/
theorem slotRowsAgreeWithTheSelector : Obligations.SlotRowsAgreeWithTheSelector := by
  intro k d i s h
  obtain ⟨enc, wf⟩ := encode_of_decodeSlot h
  exact ⟨_, exec_slot_row enc wf s, putDesc_desc_same k _ s, onlyDesc_putDesc k _ s⟩

/-! ### The fields of each variant -/

/-- Settles O46: each field of R203 as its sum, and each part of a byte as its quotient and remainder. -/
theorem detailedTimingRow : Obligations.DetailedTimingRow := by
  intro k d s _
  refine ⟨_, dtdOf d, rfl, onlyDesc_putDesc k _ s, putDesc_desc_same k _ s, ?_⟩
  have byte : ∀ j, (byteAt d j).toNat < 256 := fun j => (byteAt d j).isLt
  have top4 : ∀ j, (byteAt d j).toNat / 16 % 16 = (byteAt d j).toNat / 16 := fun j => by have := byte j; omega
  have top2 : ∀ j, (byteAt d j).toNat / 64 % 4 = (byteAt d j).toNat / 64 := fun j => by have := byte j; omega
  have top1 : ∀ j, (byteAt d j).toNat / 128 % 2 = (byteAt d j).toNat / 128 := fun j => by have := byte j; omega
  simp [dtdOf, toNat_le16, toNat_split12, toNat_split10, toNat_split6, toNat_cat3, toNat_bits, toNat_bit, top4, top2,
    top1]

/-- `TLEN` is the least index of 0x0A: 13 bytes are few enough for its four bits. -/
theorem toNat_textLen (data : Vector Byte 13) :
    (textLen data.toList).toNat = data.toList.findIdx (fun b => b == 0x0A) := by
  have le : data.toList.findIdx (fun b => b == 0x0A) ≤ 13 := List.findIdx_le_length.trans_eq data.length_toList
  rw [textLen, BitVec.toNat_ofNat]
  omega

theorem toNat_textLen_le (data : Vector Byte 13) : (textLen data.toList).toNat ≤ 13 := by
  rw [toNat_textLen]
  exact List.findIdx_le_length.trans_eq data.length_toList

/-- No byte before `TLEN` is 0x0A. -/
theorem getElem_ne_of_lt_textLen (data : Vector Byte 13) (j : Fin 13) (h : j.val < (textLen data.toList).toNat) :
    data[j] ≠ 0x0A := by
  rw [toNat_textLen] at h
  exact beq_eq_false_iff_ne.mp (List.not_of_lt_findIdx h)

/-- The byte at `TLEN`, where there is one, is 0x0A. -/
theorem getElem_eq_of_eq_textLen (data : Vector Byte 13) (j : Fin 13) (h : j.val = (textLen data.toList).toNat) :
    data[j] = 0x0A := by
  rw [toNat_textLen] at h
  have within : data.toList.findIdx (fun b => b == 0x0A) < data.toList.length := by
    rw [data.length_toList]
    omega
  have found := List.findIdx_getElem (w := within)
  obtain ⟨j, lt⟩ := j
  subst h
  simpa using found

/-- A text descriptor's bytes are those of the body after its first, and its `TLEN` is right. -/
theorem textOf_fields (kind : TextKind) (tag : Byte) (body : List Byte) :
    ∃ data tlen, textOf kind ([0x00, 0x00, 0x00, tag] ++ body) = .text kind data tlen ∧
      (∀ j : Fin 13, data[j] = byteAt body (1 + j.val)) ∧ tlen.toNat ≤ 13 ∧
      (∀ j : Fin 13, j.val < tlen.toNat → data[j] ≠ 0x0A) ∧ (∀ j : Fin 13, j.val = tlen.toNat → data[j] = 0x0A) := by
  refine ⟨_, _, rfl, fun j => ?data, toNat_textLen_le _, getElem_ne_of_lt_textLen _, getElem_eq_of_eq_textLen _⟩
  case data =>
    rw [Fin.getElem_fin, getElem_bytesAt, byteAt_append_right (by simp only [List.length_cons, List.length_nil]; omega)]
    congr 1
    simp only [List.length_cons, List.length_nil]
    omega

/-- Settles O47: the three rows differ in the kind and the tag alone. -/
theorem textRows : Obligations.TextRows := by
  intro k body s _
  have row : ∀ (kind : TextKind) (tag : Byte), ∃ data tlen,
      (putDesc k (textOf kind ([0x00, 0x00, 0x00, tag] ++ body)) s).record.desc[k] = .text kind data tlen ∧
      (∀ j : Fin 13, data[j] = byteAt body (1 + j.val)) ∧ tlen.toNat ≤ 13 ∧
      (∀ j : Fin 13, j.val < tlen.toNat → data[j] ≠ 0x0A) ∧
      (∀ j : Fin 13, j.val = tlen.toNat → data[j] = 0x0A) := fun kind tag => by
    rw [putDesc_desc_same]
    exact textOf_fields kind tag body
  exact ⟨⟨_, rfl, onlyDesc_putDesc k _ s, row .serial 0xFF⟩, ⟨_, rfl, onlyDesc_putDesc k _ s, row .comment 0xFE⟩,
    _, rfl, onlyDesc_putDesc k _ s, row .name 0xFC⟩

/-- The fields of a range-limits descriptor are the slot's bytes from byte 5 on. -/
theorem rangeOf_bytes {d : List Byte} (size : d.length = 18) :
    [(rangeOf d).vmin, (rangeOf d).vmax, (rangeOf d).hmin, (rangeOf d).hmax, (rangeOf d).pclkMax,
      (rangeOf d).formula] ++ (rangeOf d).tail.toList = d.drop 5 := by
  have tail : (rangeOf d).tail.toList = d.drop 11 := toList_bytesAt (by omega)
  rw [drop_eq_byteAt_cons (j := 5) (by omega), drop_eq_byteAt_cons (j := 6) (by omega),
    drop_eq_byteAt_cons (j := 7) (by omega), drop_eq_byteAt_cons (j := 8) (by omega),
    drop_eq_byteAt_cons (j := 9) (by omega), drop_eq_byteAt_cons (j := 10) (by omega), tail]
  rfl

/-- Settles O48: the 13 bytes after the guard byte, one by one and then the tail. -/
theorem rangeLimitsRow : Obligations.RangeLimitsRow := by
  intro k body s size
  exact ⟨_, _, rfl, onlyDesc_putDesc k _ s, putDesc_desc_same k _ s, rangeOf_bytes (congrArg (· + 4) size)⟩

/-- A white-point entry as numbers. -/
theorem toNat_whitePointOf (s : List Byte) (o : Nat) :
    (whitePointOf s o).wx.toNat = 4 * (byteAt s (o + 2)).toNat + (byteAt s (o + 1)).toNat / 4 % 4 ∧
      (whitePointOf s o).wy.toNat = 4 * (byteAt s (o + 3)).toNat + (byteAt s (o + 1)).toNat % 4 := by
  simp [whitePointOf, toNat_chroma10, toNat_bits]

/-- Settles O49: both entries are entries of the slot, five bytes apart, and the tail is its last three bytes. -/
theorem whitePointRow : Obligations.WhitePointRow := by
  intro k body s size
  have len : 15 + 3 = ([0x00, 0x00, 0x00, 0xFB] ++ body).length := (congrArg (· + 4) size).symm
  obtain ⟨aWx, aWy⟩ := toNat_whitePointOf ([0x00, 0x00, 0x00, 0xFB] ++ body) 5
  obtain ⟨bWx, bWy⟩ := toNat_whitePointOf ([0x00, 0x00, 0x00, 0xFB] ++ body) 10
  exact ⟨_, _, _, _, rfl, onlyDesc_putDesc k _ s, putDesc_desc_same k _ s, rfl, aWx, aWy, rfl, rfl, bWx, bWy, rfl,
    toList_bytesAt len⟩

/-- Settles O50: the unused rows write the one constructor without fields. -/
theorem unusedRows : Obligations.UnusedRows := by
  intro k body s
  have row : s.onlyDesc (putDesc k .unused s) k ∧ (putDesc k .unused s).record.desc[k] = .unused :=
    ⟨onlyDesc_putDesc k .unused s, putDesc_desc_same k .unused s⟩
  exact ⟨⟨_, rfl, row⟩, ⟨_, rfl, row⟩, _, rfl, row⟩

end Sys2Proof.Machine
end

section
/-! `EDID`: the outcomes, every field of the record of a block with the signature, and its descriptors as those of its
slots (44_edid_decode.md R161 to R175). -/

namespace Sys2Proof.Machine

/-! ### The outcomes -/

/-- Writing group ED leaves everything else alone. -/
theorem onlyEd_putEdid (v : EdidVerdict) (s : State) : s.onlyEd (putEdid v s) := by
  cases v <;> rfl

/-- Fewer than 128 bytes are `Short`, and no cell is read to find that out. -/
theorem edidVerdict_of_short {len : BitVec 8} (short : len.toNat < 128) (ed : Memory) :
    edidVerdict len ed = .next (.failed .short false) := by
  have short' : len.toNat < Config.edidLen := short
  rw [edidVerdict, if_neg (by omega), if_pos short']

/-- `EDID` finds out from a block what its 128 bytes say. -/
theorem edidVerdict_of_blockIs {s : State} {e : List Byte} (h : s.blockIs e) :
    edidVerdict s.edlen s.edbuf = .next (blockVerdict e) := by
  obtain ⟨len, size, cells⟩ := h
  have full : s.edlen.toNat = Config.edidLen := len
  have read := readCells_of_cells Config.edidLen s.edbuf e 0 (by rw [Nat.zero_add]; exact size.le) fun j hj => by
    rw [Nat.zero_add, cells j (size ▸ hj)]
  rw [show e.length = Config.edidLen from size] at read
  rw [edidVerdict, full, if_neg (lt_irrefl _), if_neg (lt_irrefl _), read]

theorem exec_edid_of_short {s : State} (short : s.edlen.toNat < 128) :
    exec .edid s = .next (putEdid (.failed .short false) s) := by
  rw [exec_edid_eq, edidVerdict_of_short short, andThen_next]

/-- Settles O33: the length decides before any cell is read. -/
theorem shortBlockIsStructuralError : Obligations.ShortBlockIsStructuralError :=
  fun s short => ⟨_, exec_edid_of_short short, rfl, rfl, rfl, onlyEd_putEdid _ s⟩

/-- The checksum verdict is about the sum of the bytes as numbers. -/
theorem csumVerdict_iff (e : List Byte) : csumVerdict e = true ↔ (e.map BitVec.toNat).sum % 256 = 0 := by
  rw [csumVerdict, beq_iff_eq, ← toNat_sum8, ← BitVec.toNat_inj]
  rfl

theorem blockVerdict_of_header {e : List Byte} (header : e.take 8 = Config.edidHeader) :
    blockVerdict e = .parsed (csumVerdict e) (recordOf e) :=
  if_pos (beq_iff_eq.mpr header)

theorem blockVerdict_of_no_header {e : List Byte} (header : e.take 8 ≠ Config.edidHeader) :
    blockVerdict e = .failed .header (csumVerdict e) :=
  if_neg fun present => header (beq_iff_eq.mp present)

/-- The checksum verdict is reported whether the signature is there or not. -/
theorem putEdid_blockVerdict_edCsumOk (e : List Byte) (s : State) :
    (putEdid (blockVerdict e) s).edCsumOk = csumVerdict e := by
  unfold blockVerdict
  split <;> rfl

/-- Settles O34: the signature decides between the two outcomes, and the checksum verdict is in both. -/
theorem headerDecidesStructure : Obligations.HeaderDecidesStructure := by
  intro s e block
  refine ⟨_, exec_edid_of_blockIs block, onlyEd_putEdid _ s, ?sum, fun header => ?found, fun header => ?missing⟩
  case sum => rw [putEdid_blockVerdict_edCsumOk, csumVerdict_iff]
  case found => rw [blockVerdict_of_header header]; exact ⟨rfl, rfl⟩
  case missing => rw [blockVerdict_of_no_header header]; exact ⟨rfl, rfl⟩

/-! ### The fields of the record -/

/-- The manufacturer word as a number (44_edid_decode.md R164). -/
theorem toNat_mfgWord (e : List Byte) : (mfgWord e).toNat = 256 * (byteAt e 8).toNat + (byteAt e 9).toNat :=
  toNat_be16 _ _

/-- Settles O35: the letters are parts of one word, the others are bytes low byte first. -/
theorem identityFields : Obligations.IdentityFields := by
  intro s e block header
  refine ⟨_, exec_edid_of_header block header, rfl, ?_⟩
  simp [recordOf, toNat_mfgWord, Nat.shiftRight_eq_div_pow, toNat_le16, toNat_le32]

/-- Settles O36: bit 7 selects the variant, and the fields of each are the other seven bits. -/
theorem videoInputVariant : Obligations.VideoInputVariant := by
  intro s e block header
  have byte := (byteAt e 20).isLt
  have top := toNat_bit (byteAt e 20) 7
  refine ⟨_, exec_edid_of_header block header, rfl, fun high => ?digital, fun low => ?analog⟩
  case digital =>
    have selected : bit (byteAt e 20) 7 = true := by
      by_contra clear
      rw [Bool.not_eq_true] at clear
      rw [clear, Bool.toNat_false] at top
      omega
    refine ⟨_, _, if_pos selected, ?_⟩
    rw [toNat_bits, toNat_bit]
    omega
  case analog =>
    have clear : ¬ bit (byteAt e 20) 7 = true := fun selected => by
      rw [selected, Bool.toNat_true] at top
      omega
    refine ⟨_, _, _, _, _, _, if_neg clear, ?_⟩
    simp only [toNat_bits, toNat_bit]
    omega

/-- Settles O37: byte 24 is the sum of its feature bits, the others are single bytes. -/
theorem displayParameterFields : Obligations.DisplayParameterFields := by
  intro s e block header
  refine ⟨_, exec_edid_of_header block header, rfl, rfl, rfl, rfl, ?_, rfl, rfl⟩
  have byte := (byteAt e 24).isLt
  simp only [State.setEd_record, recordOf, toNat_bits, toNat_bit]
  omega

/-- Settles O38: each coordinate is a high byte and a pair of bits of byte 25 or 26. -/
theorem chromaticityFields : Obligations.ChromaticityFields := by
  intro s e block header
  refine ⟨_, exec_edid_of_header block header, rfl, ?_⟩
  have topPair : ∀ j, (byteAt e j).toNat / 64 % 4 = (byteAt e j).toNat / 64 := fun j => by
    have := (byteAt e j).isLt
    omega
  simp [recordOf, toNat_chroma10, toNat_bits, topPair]

/-- A standard timing as numbers, and when its entry is unused (44_edid_decode.md R174). -/
theorem stdTimingOf_fields (e : List Byte) (k : Nat) :
    (stdTimingOf e k).hcode = byteAt e (38 + 2 * k) ∧
      (byteAt e (39 + 2 * k)).toNat = 64 * (stdTimingOf e k).aspect.toNat + (stdTimingOf e k).vcode.toNat ∧
      ((stdTimingOf e k).used = false ↔ byteAt e (38 + 2 * k) = 0x01 ∧ byteAt e (39 + 2 * k) = 0x01) := by
  refine ⟨rfl, ?second, ?unused⟩
  case second =>
    have := (byteAt e (39 + 2 * k)).isLt
    simp only [stdTimingOf, toNat_bits]
    omega
  case unused => simp only [stdTimingOf, Bool.not_eq_false', Bool.and_eq_true, beq_iff_eq]

@[simp] theorem recordOf_std (e : List Byte) (k : Fin 8) : (recordOf e).std[k] = stdTimingOf e k.val :=
  Vector.getElem_ofFn k.isLt

@[simp] theorem recordOf_desc (e : List Byte) (k : Fin 4) : (recordOf e).desc[k] = slotDesc (slotOf e k.val) :=
  Vector.getElem_ofFn k.isLt

/-- Settles O39: three bytes joined, and eight entries of two bytes each. -/
theorem timingFields : Obligations.TimingFields := by
  intro s e block header
  refine ⟨_, exec_edid_of_header block header, rfl, toNat_be24 _ _ _, fun k => ?_⟩
  rw [State.setEd_record, recordOf_std]
  exact stdTimingOf_fields e k.val

/-! ### The descriptors -/

/-- A slot of a block is 18 bytes. -/
theorem length_slotOf {e : List Byte} (size : e.length = 128) (k : Fin 4) : (slotOf e k.val).length = 18 := by
  rw [slotOf, List.length_take, List.length_drop, size]
  omega

/-- Byte j of slot k is byte 54 + 18k + j of the block. -/
theorem byteAt_slotOf {e : List Byte} (size : e.length = 128) (k : Fin 4) {j : Nat} (hj : j < 18) :
    byteAt (slotOf e k.val) j = byteAt e (54 + 18 * k.val + j) := by
  have within : j < (slotOf e k.val).length := (length_slotOf size k).symm ▸ hj
  rw [byteAt, byteAt, List.getD_eq_getElem _ _ within, List.getD_eq_getElem _ _ (by omega)]
  simp only [slotOf, List.getElem_take, List.getElem_drop]

/-- Two lists of one length with the same bytes are the same. -/
theorem eq_of_byteAt_eq {l l' : List Byte} (size : l.length = l'.length)
    (same : ∀ j, j < l.length → byteAt l j = byteAt l' j) : l = l' :=
  List.ext_getElem size fun j h h' => by
    have := same j h
    rwa [byteAt, byteAt, List.getD_eq_getElem _ _ h, List.getD_eq_getElem _ _ h'] at this

/-- Settles O40: 18 bytes that agree with a slot's are that slot. -/
theorem descriptorsAreTheirSlots : Obligations.DescriptorsAreTheirSlots := by
  intro s e block header
  obtain ⟨_, size, _⟩ := id block
  refine ⟨_, exec_edid_of_header block header, rfl, fun k d len same => ?_⟩
  have slot : slotOf e k.val = d := by
    refine eq_of_byteAt_eq ((length_slotOf size k).trans len.symm) fun j hj => ?_
    rw [length_slotOf size k] at hj
    rw [byteAt_slotOf size k hj, same j hj]
  rw [State.setEd_record, recordOf_desc, slot]

/-- A structural success comes from 128 bytes that `EDBUF` holds. -/
theorem exists_block_of_parsed {len : BitVec 8} {ed : Memory} {csum : Bool} {r : Record}
    (h : edidVerdict len ed = .next (.parsed csum r)) :
    ∃ e, len.toNat = 128 ∧ e.length = 128 ∧ (∀ j, j < 128 → Memory.read ed j = some (byteAt e j)) ∧
      r = recordOf e := by
  unfold edidVerdict at h
  split at h
  case isTrue => cases h
  rename_i long
  split at h
  case isTrue => cases h
  rename_i short
  split at h
  case h_1 => cases h
  rename_i e cells
  unfold blockVerdict at h
  split at h <;> cases h
  have full : len.toNat = 128 := Nat.le_antisymm (not_lt.mp long) (not_lt.mp short)
  refine ⟨e, full, readCells_length _ _ _ _ cells, fun j hj => ?_, rfl⟩
  have cell := readCells_get _ _ _ 0 j cells hj
  rw [Nat.zero_add, readCell_ok_iff] at cell
  exact cell.2

/-- A successful `EDID` had a block in `EDBUF` and leaves that block's record. -/
theorem exists_block_of_edOk {s t : State} (h : exec .edid s = .next t) (ok : t.edOk = true) :
    ∃ e, t.blockIs e ∧ t.record = recordOf e := by
  rw [exec_edid_eq, andThen_eq_next_iff] at h
  obtain ⟨v, found, ⟨⟩⟩ := h
  cases v with
  | failed f csum => cases ok
  | parsed csum r =>
    obtain ⟨e, len, size, cells, rfl⟩ := exists_block_of_parsed found
    exact ⟨e, ⟨len, size, cells⟩, rfl⟩

/-- A slot port shows the slot of the block. -/
theorem portBytes_slot {s : State} {e : List Byte} (block : s.blockIs e) (k : Fin 4) :
    portBytes (s.setPort (.slot k)) = .next (slotOf e k.val) := by
  obtain ⟨len, size, cells⟩ := block
  have full : s.edlen.toNat = Config.edidLen := len
  have read : readRange (s.setPort (.slot k)) .ed (slotBase k) 18 = .ok (slotOf e k.val) := by
    rw [← length_slotOf size k]
    refine readCells_of_cells _ _ _ _ ?_ fun j hj => ?_
    · rw [length_slotOf size k, slotBase, Buffer.cells, Config.edidLen]
      omega
    · rw [length_slotOf size k] at hj
      rw [byteAt_slotOf size k hj]
      exact cells _ (by rw [slotBase]; omega)
  simp only [portBytes, portBytesAt, State.setPort_port, State.setPort_edlen, full, if_true, read]

/-- Writing a descriptor register with what it holds changes nothing. -/
theorem putDesc_self (k : Fin 4) (s : State) : putDesc k s.record.desc[k] s = s := by
  rw [putDesc_eq, Fin.getElem_fin, Vector.set_getElem_self]
  rfl

/-- Settles O45: the block is still in `EDBUF`, so the slot port shows a row that writes what `DESC[k]` holds. -/
theorem slotRowsRepeatTheCommand : Obligations.SlotRowsRepeatTheCommand := by
  intro s t h ok k
  obtain ⟨e, block, record⟩ := exists_block_of_edOk h ok
  obtain ⟨_, size, _⟩ := id block
  obtain ⟨i, row⟩ := decodeSlot_total k (length_slotOf size k)
  obtain ⟨enc, wf⟩ := encode_of_decodeSlot row
  have fetched : fetch (t.setPort (.slot k)) = .next i := by
    have bytes := portBytes_slot block k
    unfold portBytes at bytes
    unfold fetch fetchAt
    rw [show Config.hardware.rxcap = Config.rxcap from rfl, bytes]
    simp only [State.setPort_port, decodeAt, row]
  have held : slotDesc (slotOf e k.val) = (t.setPort (.slot k)).record.desc[k] := by
    rw [State.setPort_record, record, recordOf_desc]
  rw [step, fetched]
  exact (exec_slot_row enc wf _).trans (by rw [held, putDesc_self])

end Sys2Proof.Machine
end

section
/-! What the two checksums detect: a changed byte changes the XOR fold by the difference and nothing else does, and the
byte sum has one closing byte (40_checksum.md R102, R104). -/

namespace Sys2Proof.Machine

/-- Two bytes exclusive-ored onto a third may change places. -/
theorem xor_xor_swap (a b c : Byte) : a ^^^ b ^^^ c = a ^^^ c ^^^ b := by
  rw [BitVec.xor_assoc, BitVec.xor_comm b, ← BitVec.xor_assoc]

/-- The seed enters the fold as one more byte. -/
theorem xorFold_xor_seed (seed d : Byte) (l : List Byte) : xorFold (seed ^^^ d) l = xorFold seed l ^^^ d := by
  induction l generalizing seed with
  | nil => rfl
  | cons b l ih => rw [xorFold_cons, xorFold_cons, xor_xor_swap, ih]

/-- Different seeds give different folds. -/
theorem xorFold_seed_inj {seed seed' : Byte} (l : List Byte) : xorFold seed l = xorFold seed' l ↔ seed = seed' := by
  have zero : ∀ x : Byte, xorFold x l = xorFold 0x00 l ^^^ x := fun x => by
    have seeded := xorFold_xor_seed 0x00 x l
    rwa [show (0x00 : Byte) ^^^ x = x from BitVec.zero_xor] at seeded
  rw [zero seed, zero seed', BitVec.xor_right_inj]

/-- Changing a byte changes the fold by the difference of the two bytes. -/
theorem xorFold_set (seed : Byte) {l : List Byte} {i : Nat} (b : Byte) (hi : i < l.length) :
    xorFold seed (l.set i b) = xorFold seed l ^^^ (byteAt l i ^^^ b) := by
  induction l generalizing seed i with
  | nil => cases hi
  | cons a l ih =>
    cases i with
    | zero =>
      have cancel : seed ^^^ b = seed ^^^ a ^^^ (a ^^^ b) := by
        rw [BitVec.xor_assoc, ← BitVec.xor_assoc a, BitVec.xor_self, BitVec.zero_xor]
      rw [List.set_cons_zero, xorFold_cons, xorFold_cons, cancel, xorFold_xor_seed]
      rfl
    | succ i =>
      rw [List.set_cons_succ, xorFold_cons, xorFold_cons, ih _ (Nat.lt_of_succ_lt_succ hi)]
      rfl

/-- Changing one byte leaves the others alone. -/
theorem byteAt_set_of_ne (l : List Byte) {i j : Nat} (b : Byte) (h : i ≠ j) : byteAt (l.set i b) j = byteAt l j := by
  simp only [byteAt, List.getD_eq_getElem?_getD, List.getElem?_set_ne h]

/-- A byte and its change by d differ by d. -/
theorem xor_xor_cancel (a d : Byte) : a ^^^ (a ^^^ d) = d := by
  rw [← BitVec.xor_assoc, BitVec.xor_self, BitVec.zero_xor]

/-- The order of the bytes does not matter to the fold. -/
theorem xorFold_perm (seed : Byte) {l l' : List Byte} (h : l.Perm l') : xorFold seed l' = xorFold seed l :=
  (h.foldl_eq (rcomm := ⟨fun acc b b' => xor_xor_swap acc b b'⟩) seed).symm

/-- Settles O12: the fold changes by the difference, and a difference that is zero, or is there twice, is none. -/
theorem xorChecksumDetection : Obligations.XorChecksumDetection := by
  refine fun seed l => ⟨fun i b hi changed same => ?one, fun i j d hi hj apart => ?two, fun _ => xorFold_perm seed⟩
  case one =>
    rw [xorFold_set seed b hi] at same
    have noDifference : byteAt l i ^^^ b = 0#8 := (BitVec.xor_right_inj _).mp (same.trans BitVec.xor_zero.symm)
    exact changed (BitVec.xor_eq_zero_iff.mp noDifference).symm
  case two =>
    have hj' : j < (l.set i (byteAt l i ^^^ d)).length := by rwa [List.length_set]
    rw [xorFold_set seed _ hj', byteAt_set_of_ne _ _ apart, xorFold_set seed _ hi, xor_xor_cancel, xor_xor_cancel,
      BitVec.xor_assoc, BitVec.xor_self, BitVec.xor_zero]

/-- Settles O14: one more byte is added modulo 256, and only one byte brings the sum up to 256. -/
theorem oneLastByteMakesABlockValid : Obligations.OneLastByteMakesABlockValid := by
  intro p c _
  have step := toNat_sum8_concat p c
  have sum := (sum8 p).isLt
  have last := c.isLt
  rw [← BitVec.toNat_inj, step, show (0x00 : Byte).toNat = 0 from rfl]
  omega

end Sys2Proof.Machine
end

section
/-! The request frames: what `ENCW` leaves cell by cell, the operands a frame gives back, and a frame in `TXBUF` as the
row it encodes (41_ddc_encode.md R111, R114, R116). -/

namespace Sys2Proof.Machine

/-! ### What the encoders leave -/

/-- A 7-byte frame emitted stands in the first cells of `TXBUF`. -/
theorem read_txbuf_emitW {frame : List Byte} (s : State) {j : Nat} (hj : j < frame.length) :
    Memory.read (emitW frame s).txbuf j = some (byteAt frame j) := by
  rw [emitW_eq, State.setTx_txbuf, Memory.read_writeRange_byteAt _ _ hj]

/-- The frame is all that is written of `TXBUF`. -/
theorem read_txbuf_emitW_above {frame : List Byte} (s : State) {a : Nat} (ha : frame.length ≤ a) :
    Memory.read (emitW frame s).txbuf a = Memory.read s.txbuf a := by
  rw [emitW_eq, State.setTx_txbuf]
  exact Memory.read_writeRange_above _ _ (by rwa [Nat.zero_add])

/-- Emitting a 7-byte frame leaves every group but TX alone. -/
theorem onlyTx_emitW (frame : List Byte) (s : State) : s.onlyTx (emitW frame s) := rfl

/-- The seed and the fixed bytes of the write request fold to one constant. -/
theorem xorFold_frameWHead (cid vh vl : Byte) :
    xorFold 0x6E [0x51, 0x84, 0x03, cid, vh, vl] = 0xB8 ^^^ cid ^^^ vh ^^^ vl := by
  rw [xorFold_cons, xorFold_cons, xorFold_cons, xorFold_cons, xorFold_cons, xorFold_cons, xorFold_nil]
  rfl

/-- Settles O15: `ENCW` emits the write frame of `CID` and `VAL`, so each cell is a byte of that frame. -/
theorem encwBuildsTheWriteFrame : Obligations.EncwBuildsTheWriteFrame := by
  intro s
  have cell : ∀ j, j < 7 → Memory.read (emitW (frameWBytes s.cid (zext16 s.val)) s).txbuf j =
      some (byteAt (frameWBytes s.cid (zext16 s.val)) j) := fun _ hj => read_txbuf_emitW s hj
  exact ⟨emitW (frameWBytes s.cid (zext16 s.val)) s, rfl, rfl, cell 0 (by decide), cell 1 (by decide),
    cell 2 (by decide), cell 3 (by decide), cell 4 (by decide), cell 5 (by decide), cell 6 (by decide),
    xorFold_frameWHead _ _ _, fun _ ha => read_txbuf_emitW_above s ha, onlyTx_emitW _ s, rfl⟩

/-- The two bytes of a value field put together from two bytes. -/
theorem highByte_be16 (hi lo : Byte) : highByte (be16 hi lo) = hi := by
  apply BitVec.eq_of_toNat_eq
  have := hi.isLt
  have := lo.isLt
  rw [highByte, BitVec.extractLsb'_toNat, toNat_be16, Nat.shiftRight_eq_div_pow]
  omega

theorem lowByte_be16 (hi lo : Byte) : lowByte (be16 hi lo) = lo := by
  apply BitVec.eq_of_toNat_eq
  have := lo.isLt
  rw [lowByte, BitVec.extractLsb'_toNat, toNat_be16, Nat.shiftRight_eq_div_pow]
  omega

/-- A value of 8 bits has no high byte, and its low byte is itself. -/
theorem zext16_byte (v : BitVec 8) : zext16 v = be16 0x00 v := by
  simp [zext16, be16]

/-- Settles O17: the value field's two bytes are those of `VAL`, widened where it has 8 bits. -/
theorem valueFieldIsZeroExtended : Obligations.ValueFieldIsZeroExtended := by
  refine ⟨fun cid => ⟨fun v => ?narrow, fun v => ?wide⟩, fun p v s => ?frame⟩
  case narrow =>
    rw [zext16_byte]
    exact ⟨highByte_be16 0x00 v, lowByte_be16 0x00 v⟩
  case wide =>
    have same : zext16 v = v := BitVec.setWidth_eq v
    rw [same]
    exact ⟨rfl, rfl⟩
  case frame => exact ⟨_, rfl, rfl, readRange_emitW _ s rfl, onlyTx_emitW _ s⟩

/-! ### A frame gives its operands back -/

/-- The operand bytes of a write frame. -/
theorem frameWBytes_operands (c : Byte) (f : BitVec 16) :
    byteAt (frameWBytes c f) 3 = c ∧ be16 (byteAt (frameWBytes c f) 4) (byteAt (frameWBytes c f) 5) = f :=
  ⟨rfl, be16_highByte_lowByte f⟩

/-- Write frames are equal exactly when their operands are. -/
theorem frameWBytes_inj (c c' : Byte) (f f' : BitVec 16) :
    frameWBytes c f = frameWBytes c' f' ↔ c = c' ∧ f = f' := by
  refine ⟨fun same => ?_, fun ⟨hc, hf⟩ => by rw [hc, hf]⟩
  obtain ⟨cid, value⟩ := frameWBytes_operands c f
  obtain ⟨cid', value'⟩ := frameWBytes_operands c' f'
  rw [same] at cid value
  exact ⟨cid.symm.trans cid', value.symm.trans value'⟩

/-- Read frames are equal exactly when their operands are. -/
theorem frameRBytes_inj (c c' : Byte) : frameRBytes c = frameRBytes c' ↔ c = c' :=
  ⟨fun same => congrArg (byteAt · 3) same, fun h => by rw [h]⟩

/-- Settles O18: the operands are read off their places in the frame, and the formats differ in length and two bytes. -/
theorem requestFramesAreInjective : Obligations.RequestFramesAreInjective := by
  refine ⟨frameWBytes_inj, frameRBytes_inj, fun c c' f => ⟨?length, ?count, ?opcode⟩,
    fun c f => ⟨rfl, rfl, be16_highByte_lowByte f⟩,
    fun s => ⟨⟨_, rfl, readRange_emitW _ s rfl⟩, _, rfl, readRange_emitR _ s rfl⟩⟩
  case length =>
    have seven : (frameWBytes c f).length = 7 := rfl
    have five : (frameRBytes c').length = 5 := rfl
    omega
  case count =>
    have differ : lenByte 4 ≠ lenByte 2 := by decide
    exact differ
  case opcode =>
    have differ : Config.opcSet ≠ Config.opcGet := by decide
    exact differ

/-! ### The request-frame rows -/

/-- The write frame of two value bytes, written out. -/
theorem frameWBytes_be16 (cid vh vl : Byte) :
    frameWBytes cid (be16 vh vl) =
      [0x51, 0x84, 0x03, cid, vh, vl, 0x6E ^^^ 0x51 ^^^ 0x84 ^^^ 0x03 ^^^ cid ^^^ vh ^^^ vl] := by
  rw [frameWBytes, highByte_be16, lowByte_be16]
  rfl

/-- The read frame, written out. -/
theorem frameRBytes_eq (cid : Byte) :
    frameRBytes cid = [0x51, 0x82, 0x01, cid, 0x6E ^^^ 0x51 ^^^ 0x82 ^^^ 0x01 ^^^ cid] := rfl

/-- Settles O19: the rows emit the frames of the encoders. -/
theorem requestRowsEmitTheirFrame : Obligations.RequestRowsEmitTheirFrame := by
  refine ⟨fun cid vh vl chk s => ⟨_, rfl, rfl, ?write, fun _ ha => read_txbuf_emitW_above s ha, onlyTx_emitW _ s⟩,
    fun cid chk s => ⟨_, rfl, rfl, ?read, fun _ ha => read_txbuf_emitR_above s ha, onlyTx_emitR _ s⟩⟩
  case write => rw [readRange_emitW _ s rfl, frameWBytes_be16]
  case read => rw [readRange_emitR _ s rfl, frameRBytes_eq]

/-- A write frame is the encoding of a well-formed row, which emits it again. -/
theorem frameWBytes_row (c : Byte) (f : BitVec 16) (t : State) :
    ∃ i, decode .request (frameWBytes c f) = .ok i ∧ i.wellFormed = true ∧
      exec i t = .next (emitW (frameWBytes c f) t) := by
  have wf : Instr.wellFormed (.frameW c (highByte f) (lowByte f)
      (requestChecksum (frameWHead c (highByte f) (lowByte f)))) = true := beq_iff_eq.mpr rfl
  refine ⟨_, decodeAt_encode wf, wf, ?_⟩
  rw [← be16_highByte_lowByte f, highByte_be16, lowByte_be16]
  rfl

/-- A read frame is the encoding of a well-formed row, which emits it again. -/
theorem frameRBytes_row (c : Byte) (t : State) :
    ∃ i, decode .request (frameRBytes c) = .ok i ∧ i.wellFormed = true ∧
      exec i t = .next (emitR (frameRBytes c) t) := by
  have wf : Instr.wellFormed (.frameR c (requestChecksum (frameRHead c))) = true := beq_iff_eq.mpr rfl
  exact ⟨_, decodeAt_encode wf, wf, rfl⟩

/-- After a 5-byte frame the two cells past it hold a value. -/
theorem isSome_read_txbuf_emitR {frame : List Byte} (s : State) {j : Nat} (hj : j < frame.length + 2) :
    (Memory.read (emitR frame s).txbuf j).isSome = true := by
  rw [emitR_eq, State.bump_txbuf, State.setTx_txbuf, Memory.read_writeRange_byteAt _ _ (by
    rwa [List.length_append])]
  rfl

/-- Settles O20: an encoder emits a frame that is a row's encoding, and the row emits that frame again. -/
theorem encodedFrameIsItsRow : Obligations.EncodedFrameIsItsRow := by
  refine fun s => ⟨?encw, ?encr⟩
  case encw =>
    obtain ⟨i, row, wf, run⟩ := frameWBytes_row s.cid (zext16 s.val) (emitW (frameWBytes s.cid (zext16 s.val)) s)
    exact ⟨_, _, i, rfl, readRange_emitW _ s rfl, row, wf, _, run, readRange_emitW _ _ rfl⟩
  case encr =>
    obtain ⟨i, row, wf, run⟩ := frameRBytes_row s.cid (emitR (frameRBytes s.cid) s)
    have size : (frameRBytes s.cid).length = 5 := rfl
    have within5 : 5 < (frameRBytes s.cid).length + 2 := by omega
    have within6 : 6 < (frameRBytes s.cid).length + 2 := by omega
    exact ⟨_, _, i, rfl, readRange_emitR _ s rfl, isSome_read_txbuf_emitR s within5,
      isSome_read_txbuf_emitR s within6, row, wf, _, run, readRange_emitR _ _ rfl⟩

end Sys2Proof.Machine
end

section
/-! The verdict on a reply: when it is valid, which failure it reports, what `DECR` writes of it, and what a wrong
setting of the parameters makes of a good reply (42_ddc_decode.md R121 to R135, 60_exceptions.md R231, R235). -/

namespace Sys2Proof.Machine

/-! ### The verdict on any bytes -/

/-- A verdict past a condition for failure is a given failure exactly when it is this one or a later one is. -/
theorem ite_failed_eq_failed_iff {P : Prop} [Decidable P] (f g : ReplyFailure) (v : ReplyVerdict) :
    (if P then .failed f else v) = ReplyVerdict.failed g ↔ (P ∧ f = g) ∨ (¬ P ∧ v = .failed g) := by
  by_cases h : P <;> simp [h]

/-- The length byte of the received bytes declares their number (42_ddc_decode.md R121, checks of `Length`). -/
theorem byteAt_eq_lenByte_iff {r : List Byte} (fits : r.length ≤ 130) :
    byteAt r 1 = lenByte (r.length - 3) ↔ (byteAt r 1).toNat = 128 + (r.length - 3) :=
  eq_lenByte_iff _ (by omega)

/-- Settles O22: the checks, and the two fields as numbers, which determine the values. -/
theorem replyValidExactlyWhenChecksPass : Obligations.ReplyValidExactlyWhenChecksPass := by
  refine fun p cid r m c fits => ⟨fun valid => ?checks, ?verdict⟩
  case checks =>
    obtain ⟨long, count, sum, accepted, echoed⟩ := passes_of_replyVerdict_valid valid
    obtain ⟨hm, hc⟩ := toNat_of_replyVerdict_valid valid
    exact ⟨long, (byteAt_eq_lenByte_iff fits).mp count, List.dropLast_eq_take ▸ sum, accepted, echoed, hm, hc⟩
  case verdict =>
    rintro ⟨long, count, sum, accepted, echoed, hm, hc⟩
    have passes : ReplyPasses p cid r :=
      ⟨long, (byteAt_eq_lenByte_iff fits).mpr count, List.dropLast_eq_take ▸ sum, accepted, echoed⟩
    rw [replyVerdict_of_passes passes, ReplyVerdict.valid.injEq, ← BitVec.toNat_inj, ← BitVec.toNat_inj, toNat_be16,
      toNat_be16]
    exact ⟨hm.symm, hc.symm⟩

/-- Settles O24: each failure is reported where its check fails and the ones before it pass. The chain of checks is
first written out as conjunctions and disjunctions; what is left for each cause is to compare them, with the bounds on
the number of bytes in the two spellings of the rule. -/
theorem replyReportsTheFirstCause : Obligations.ReplyReportsTheFirstCause := by
  intro p cid r fits
  have count := byteAt_eq_lenByte_iff fits
  have ok : Config.rcOk = 0x00 := rfl
  simp only [replyVerdict, ite_failed_eq_failed_iff, ← count, List.dropLast_eq_take, ok]
  simp only [reduceCtorEq, and_false, and_true, or_false, false_or, not_lt, not_not, ne_eq]
  refine ⟨?checksum, ?declined, ?echo, ?length⟩
  case checksum => grind
  case declined => grind
  case echo => grind
  case length => grind

/-- A reply with a right length byte and a wrong checksum byte is `Checksum`, of any length. -/
theorem replyVerdict_of_wrong_sum {p : Config.Params} (cid : Byte) {r : List Byte} (long : 3 ≤ r.length)
    (count : byteAt r 1 = lenByte (r.length - 3))
    (sum : byteAt r (r.length - 1) ≠ xorFold p.rxSeed (r.take (r.length - 1))) :
    replyVerdict p cid r = .failed .checksum := by
  unfold replyVerdict
  rw [if_neg (by omega), if_neg (not_not.mpr count), if_pos sum]

/-- Settles O29: the length byte stays right, and the fold of the same bytes under another seed is another byte. -/
theorem wrongSeedIsAlwaysDetected : Obligations.WrongSeedIsAlwaysDetected := by
  intro p q cid r m c other valid
  obtain ⟨long, count, sum, _, _⟩ := passes_of_replyVerdict_valid valid
  refine replyVerdict_of_wrong_sum cid (by omega) count fun sum' => other ?_
  exact (xorFold_seed_inj _).mp (sum'.symm.trans sum)

/-- The echo with a type byte, read where none is expected, passes every check. -/
theorem typedEcho_passes_untyped (seed typ c : Byte) (m v : BitVec 16) :
    ReplyPasses ⟨seed, 0⟩ c (echoFrame ⟨seed, 1⟩ typ c m v) := by
  obtain ⟨long, count, sum, accepted, echoed⟩ := echoFrame_passes ⟨seed, 1⟩ typ c m v
  exact ⟨Nat.le_of_succ_le long, count, sum, accepted, echoed⟩

/-- The echo without a type byte, read where one is expected, is one byte short after every other check. -/
theorem untypedEcho_short_typed (seed typ c : Byte) (m v : BitVec 16) :
    replyVerdict ⟨seed, 1⟩ c (echoFrame ⟨seed, 0⟩ typ c m v) = .failed .length := by
  obtain ⟨_, count, sum, accepted, echoed⟩ := echoFrame_passes ⟨seed, 0⟩ typ c m v
  have len : (echoFrame ⟨seed, 0⟩ typ c m v).length = 10 := rfl
  have one : (1 : Fin 2).val = 1 := rfl
  unfold replyVerdict
  simp only [one]
  rw [if_neg (by omega), if_neg (not_not.mpr count), if_neg (not_not.mpr sum), if_neg (by omega),
    if_neg (not_not.mpr accepted), if_neg (by omega), if_neg (not_not.mpr echoed), if_pos (by omega)]

/-- Settles O30: the one mistake moves both fields by one byte, the other leaves the reply one byte short. -/
theorem typeByteMismatch : Obligations.TypeByteMismatch := by
  refine fun seed typ c m v => ⟨?_, untypedEcho_short_typed seed typ c m v⟩
  rw [replyVerdict_of_passes (typedEcho_passes_untyped seed typ c m v), be16_eq_append, be16_eq_append]
  rfl

/-! ### `DECR` writes the verdict -/

/-- Writing group RR leaves everything else alone. -/
theorem onlyRr_putReply (v : ReplyVerdict) (s : State) : s.onlyRr (putReply v s) := by
  cases v <;> rfl

@[simp] theorem putReply_rrValid (v : ReplyVerdict) (s : State) : (putReply v s).rrValid = v.isValid := by
  cases v <;> rfl

@[simp] theorem putReply_rrFail (v : ReplyVerdict) (s : State) : (putReply v s).rrFail = v.code := by
  cases v <;> rfl

/-- A valid verdict leaves its values in group RR. -/
theorem putReply_values {v : ReplyVerdict} {m c : BitVec 16} (valid : v = .valid m c) (s : State) :
    (putReply v s).rrMax = m ∧ (putReply v s).rrCur = c := by
  rw [valid]
  exact ⟨rfl, rfl⟩

/-- `DECR` writes the verdict on the received reply, at every setting of the parameters. -/
theorem execAt_decr_of_replyIsIn {p : Config.Setting} (v : BitVec p.valWidth.bits) {s : State} {r : List Byte}
    (h : s.replyIsIn p.rxcap r) :
    execAt p v .decr s = .next (putReply (replyVerdict p.toParams s.cid r) s) := by
  rw [execAt, decrAt_eq, decrVerdict_of_replyIsIn s.cid h, andThen_next]

/-- Settles O21: `DECR` is a write of the verdict. -/
theorem decrWritesTheVerdict : Obligations.DecrWritesTheVerdict :=
  ⟨fun s _ h => ⟨_, exec_decr_of_replyIs h, putReply_rrValid _ s, putReply_rrFail _ s,
      fun _ _ valid => putReply_values valid s, onlyRr_putReply _ s⟩,
    fun _ v s _ h => ⟨_, execAt_decr_of_replyIsIn v h, putReply_rrValid _ s, putReply_rrFail _ s,
      fun _ _ valid => putReply_values valid s, onlyRr_putReply _ s⟩⟩

/-- Settles O25: the code is the cause's. -/
theorem failedReplyWritesItsCode : Obligations.FailedReplyWritesItsCode := by
  intro s r f h failed
  refine ⟨_, exec_decr_of_replyIs h, ?valid, onlyRr_putReply _ s, ?code⟩
  case valid => rw [failed]; rfl
  case code => rw [failed]; cases f <;> rfl

/-- `DECR` on fewer than three bytes is `Length`, and no cell is read to find that out. -/
theorem decrVerdict_of_short {p : Config.Setting} (cid : Byte) {len : BitVec 8} (short : len.toNat < 3) (rx : Memory) :
    decrVerdict p cid len rx = .next (.failed .length) := by
  have room := (setting_rxcap_bounds p).1
  rw [decrVerdict, if_neg (by omega), if_pos short]

/-- `DECR` whose verdict is `Length` completes and reports it. -/
theorem exec_decr_length {s : State} (h : decrVerdict Config.hardware s.cid s.rxlen s.rxbuf = .next (.failed .length)) :
    ∃ t, exec .decr s = .next t ∧ t.rrValid = false ∧ t.rrFail = 1 ∧ s.onlyRr t := by
  refine ⟨putReply (.failed .length) s, ?_, rfl, rfl, onlyRr_putReply _ s⟩
  rw [exec_decr_eq, h, andThen_next]

/-- Settles O27: the number of bytes decides before any cell is read. -/
theorem shortReplyReadsNothing : Obligations.ShortReplyReadsNothing :=
  fun s short => exec_decr_length (decrVerdict_of_short s.cid (by omega) s.rxbuf)

/-- The length byte of n payload bytes declares n. -/
theorem toNat_bits_lenByte {n : Nat} (h : n ≤ 127) : (bits (lenByte n) 0 7).toNat = n := by
  have whole := (eq_lenByte_iff (lenByte n) h).mp rfl
  rw [toNat_bits, whole]
  omega

/-- Settles O26: such a length byte is not that of the number received, and it is compared before the rest is read. -/
theorem truncatedReplyIsInvalid : Obligations.TruncatedReplyIsInvalid := by
  intro s b fits cell truncated
  apply exec_decr_length
  by_cases short : s.rxlen.toNat < 3
  · exact decrVerdict_of_short s.cid short s.rxbuf
  have room := rxcap_le
  have space := rxcap_ge
  have read : readCell Config.hardware.rxcap s.rxbuf 1 = .ok b :=
    (readCell_ok_iff _ _ _ _).mpr ⟨Nat.lt_of_lt_of_le (by decide) space, cell⟩
  have wrong : b ≠ lenByte (s.rxlen.toNat - 3) := by
    rintro rfl
    rw [toNat_bits_lenByte (by omega)] at truncated
    omega
  have fits' : ¬ Config.hardware.rxcap < s.rxlen.toNat := not_lt.mpr fits
  rw [decrVerdict, if_neg fits', if_neg short, read]
  exact if_pos wrong

/-! ### Round trips -/

/-- Settles O28: the echo passes every check, and it fits in `RXBUF`. -/
theorem echoRoundTrips : Obligations.EchoRoundTrips :=
  ⟨replyVerdict_echoFrame, fun s typ m v => ⟨_, exec_decr_echoFrame s typ m v, rfl, rfl, rfl, rfl⟩,
    fun _ typ m => ⟨_, _, rfl, exec_decr_echoFrame _ typ m _, rfl, rfl⟩⟩

/-- The row of a reply frame writes the verdict on the bytes it encodes. -/
theorem exec_reply_row {i : Instr} {r : List Byte} (enc : encode i = (.reply, r)) (s : State) :
    exec i s = .next (putReply (replyVerdict Config.hw s.cid r) s) := by
  cases i with
  | frameP => cases enc; rfl
  | encw | encr | decr | edid | frameW | frameR => cases enc
  | slotUnusedZero | slotUnusedOnes | slotTextSerial | slotTextComment | slotRange | slotTextName | slotWhite
  | slotUnusedOther | slotDtd => cases enc

/-- Settles O32: both write the verdict on the same bytes. -/
theorem decrAgreesWithTheReplyRow : Obligations.DecrAgreesWithTheReplyRow := by
  intro s r i h row
  rw [exec_decr_of_replyIs h, exec_reply_row (encode_of_decodeAt row)]

/-- The type byte is there exactly when the setting has one. -/
theorem length_typ {p : Config.Params} {typ : Option Byte} (h : typ.isSome = (p.typeByte == 1)) :
    typ.toList.length = p.typeByte.val := by
  obtain ⟨seed, t⟩ := p
  fin_cases t
  · obtain rfl : typ = none := by simpa using h
    rfl
  · obtain ⟨b, rfl⟩ := Option.isSome_iff_exists.mp h
    rfl

/-- A well-formed reply row is a reply to the control it echoes, at every setting of the reply parameters. -/
theorem passes_of_wellFormedAt {p : Config.Params} {rsrc : Byte} {count : BitVec 7} {ropc echo : Byte}
    {typ : Option Byte} {mh ml sh sl : Byte} {extra : List Byte} {chk : Byte}
    (wf : Instr.wellFormedAt p (.frameP rsrc count ropc echo typ mh ml sh sl extra chk) = true) :
    ReplyPasses p echo (replyBytes rsrc count ropc echo typ mh ml sh sl extra chk) := by
  simp only [Instr.wellFormedAt, Bool.and_eq_true, beq_iff_eq] at wf
  obtain ⟨⟨typed, len⟩, sum⟩ := wf
  have size : (replyBytes rsrc count ropc echo typ mh ml sh sl extra chk).length =
      5 + p.typeByte.val + 4 + extra.length + 1 := by
    simp only [replyBytes, List.length_append, length_typ typed, List.length_cons, List.length_nil]
  have last : ∀ head : List Byte, byteAt (head ++ [chk]) ((head ++ [chk]).length - 1) = chk := fun head => by
    rw [List.length_append, List.length_singleton, Nat.add_sub_cancel, byteAt_concat_length]
  refine ⟨by omega, ?count, ?sum, rfl, rfl⟩
  case count => rw [len, Nat.add_sub_cancel]; rfl
  case sum =>
    rw [← List.dropLast_eq_take, ← sum]
    exact last _

/-- A reply to one control, received for another, is `Echo`. -/
theorem replyVerdict_of_other_echo {p : Config.Params} {c cid : Byte} {r : List Byte} (h : ReplyPasses p c r)
    (other : c ≠ cid) : replyVerdict p cid r = .failed .echo := by
  obtain ⟨long, count, sum, accepted, rfl⟩ := h
  unfold replyVerdict
  rw [if_neg (by omega), if_neg (not_not.mpr count), if_neg (not_not.mpr sum), if_neg (by omega),
    if_neg (not_not.mpr accepted), if_neg (by omega), if_pos other]

/-- Settles O31: the frame passes every check for the control it echoes, and its fields stand at their places. -/
theorem replyRowIsExamined : Obligations.ReplyRowIsExamined := by
  intro rsrc count ropc echo typ mh ml sh sl extra chk s wf
  have passes := passes_of_wellFormedAt wf
  refine ⟨_, exec_reply_row rfl s, onlyRr_putReply _ s, fun same => ?valid, fun other => ?echo⟩
  case valid =>
    obtain rfl : typ = none := by
      simp only [Instr.wellFormed, Instr.wellFormedAt, Bool.and_eq_true, beq_iff_eq] at wf
      obtain ⟨⟨typed, _⟩, _⟩ := wf
      simpa [Config.hw] using typed
    rw [replyVerdict_of_passes (same ▸ passes), be16_eq_append, be16_eq_append]
    exact ⟨rfl, rfl, rfl, rfl⟩
  case echo =>
    rw [replyVerdict_of_other_echo passes other]
    exact ⟨rfl, rfl⟩

end Sys2Proof.Machine
end

section
/-! Steps: a step is exec of what its port decodes to, where a command can stop, what each row changes, and which
operands it reads (10_state.md R21, R22, R26, R27; 20_memory.md R57, R58). -/

namespace Sys2Proof.Machine

/-! ### A step and the row it runs -/

/-- The machine is the block at this hardware's setting. -/
theorem step_eq_stepAt (s : State) : step s = stepAt Config.hardware s.val s := by
  unfold step stepAt fetch
  cases fetchAt Config.hardware s with
  | next i => exact (execAt_hardware i s).symm
  | fault f => rfl
  | refused r => rfl

/-- What is fetched is what the port's bytes decode to. -/
theorem fetchAt_of_decodeAt {p : Config.Setting} {s : State} {bs : List Byte} {i : Instr}
    (bytes : portBytesAt p.rxcap s = .next bs) (row : decodeAt p.toParams s.port bs = .ok i) :
    fetchAt p s = .next i := by
  unfold fetchAt
  simp only [bytes, row]

/-- Where an instruction is fetched, it is what the port's bytes decode to. -/
theorem exists_decode_of_fetch {s : State} {i : Instr} (h : fetch s = .next i) : ∃ bs, decode s.port bs = .ok i := by
  unfold fetch fetchAt at h
  split at h
  case h_1 => cases h
  case h_2 => cases h
  split at h <;> cases h
  exact ⟨_, ‹_›⟩

theorem stepAt_of_fetchAt {p : Config.Setting} {s : State} {i : Instr} (v : BitVec p.valWidth.bits)
    (h : fetchAt p s = .next i) : stepAt p v s = execAt p v i s := by
  rw [stepAt, h]

theorem step_of_fetch {s : State} {i : Instr} (h : fetch s = .next i) : step s = exec i s := by
  rw [step, h]

/-- A step that answers a next state ran the row its port decodes to. -/
theorem exists_fetch_of_step {s t : State} (h : step s = .next t) : ∃ i, fetch s = .next i ∧ exec i s = .next t := by
  unfold step at h
  split at h
  case h_1 => cases h
  case h_2 => cases h
  exact ⟨_, ‹_›, h⟩

/-- Settles O5: fetch is the port's bytes decoded, and step is exec of what is fetched. -/
theorem stepRunsTheDecodedRow : Obligations.StepRunsTheDecodedRow :=
  ⟨fun _ _ _ bytes row _ => step_of_fetch (fetchAt_of_decodeAt bytes row),
    fun _ v _ _ _ bytes row => stepAt_of_fetchAt v (fetchAt_of_decodeAt bytes row), step_eq_stepAt⟩

/-- On the command port a step is the command `CMD` decodes to. -/
theorem step_of_command {s : State} {i : Instr} (port : s.port = .command)
    (row : decode .command [s.cmd.setWidth 8] = .ok i) : step s = exec i s := by
  refine step_of_fetch (fetchAt_of_decodeAt (bs := [s.cmd.setWidth 8]) ?_ (port.symm ▸ row))
  simp only [portBytesAt, port]

/-- Settles O6: each value of `CMD` decodes to its command. -/
theorem commandPortRunsCmd : Obligations.CommandPortRunsCmd := by
  refine fun s port => ⟨fun h => ?_, fun h => ?_, fun h => ?_, fun h => ?_⟩ <;>
    exact step_of_command port (by rw [h]; rfl)

/-! ### Where a command stops -/

/-- Settles O8: the lengths are compared first, and a command byte is compared with the four values. -/
theorem operandsOutOfRangeAreRefused : Obligations.OperandsOutOfRangeAreRefused := by
  refine fun s => ⟨fun long => if_pos long, fun long => if_pos long, fun b big => ?_⟩
  have differs : ∀ c : Byte, c.toNat ≤ 3 → b ≠ c := fun c small same => by
    rw [same] at big
    omega
  change decodeCommand [b] = _
  unfold decodeCommand
  simp only [if_neg (differs 0 (by decide)), if_neg (differs 1 (by decide)), if_neg (differs 2 (by decide)),
    if_neg (differs 3 (by decide))]

/-- A reply the host has written is read to its end. -/
theorem exists_decrVerdict_of_ready {s : State} (h : s.replyReady) :
    ∃ v, decrVerdict Config.hardware s.cid s.rxlen s.rxbuf = .next v := by
  obtain ⟨fits, cells⟩ := h
  obtain ⟨r, read⟩ := readCells_ok Config.rxcap s.rxbuf s.rxlen.toNat 0 (by omega) cells
  have len := readCells_length _ _ _ _ read
  refine ⟨_, decrVerdict_of_replyIsIn (r := r) s.cid ⟨len.symm, len.trans_le fits, fun j hj => ?_⟩⟩
  have cell := readCells_get _ _ _ 0 j read (len ▸ hj)
  rw [Nat.zero_add, readCell_ok_iff] at cell
  exact cell.2

/-- A block the host has written is read to its end. -/
theorem exists_edidVerdict_of_ready {s : State} (h : s.blockReady) : ∃ v, edidVerdict s.edlen s.edbuf = .next v := by
  obtain ⟨fits, cells⟩ := h
  by_cases short : s.edlen.toNat < 128
  · exact ⟨_, edidVerdict_of_short short s.edbuf⟩
  have full : s.edlen.toNat = Config.edidLen := Nat.le_antisymm fits (not_lt.mp short)
  obtain ⟨e, read⟩ := readCells_ok Config.edidLen s.edbuf Config.edidLen 0 (by omega) (full ▸ cells)
  refine ⟨blockVerdict e, ?_⟩
  rw [edidVerdict, full, if_neg (lt_irrefl _), if_neg (lt_irrefl _), read]

/-- Settles O7: the encoders stop nowhere, and the decoders read no further than the host has written. -/
theorem readyCommandsComplete : Obligations.ReadyCommandsComplete := by
  intro s i port row ready
  rw [step_of_command port row]
  cases i with
  | decr =>
    obtain ⟨v, found⟩ := exists_decrVerdict_of_ready ready
    exact ⟨putReply v s, by rw [exec_decr_eq, found, andThen_next]⟩
  | edid =>
    obtain ⟨v, found⟩ := exists_edidVerdict_of_ready ready
    exact ⟨putEdid v s, by rw [exec_edid_eq, found, andThen_next]⟩
  | encw | encr | frameW | frameR | frameP => exact ⟨_, rfl⟩
  | slotUnusedZero | slotUnusedOnes | slotTextSerial | slotTextComment | slotRange | slotTextName | slotWhite
  | slotUnusedOther | slotDtd => exact ⟨_, rfl⟩

/-- A read inside the buffer that stops, stops at a cell that nothing has written. -/
theorem readCell_error_inside {n : Nat} {m : Memory} {i : Nat} {f : Fault} (inside : i < n)
    (h : readCell n m i = .error f) : f = .unwrittenCell ∧ Memory.read m i = none := by
  unfold readCell at h
  rw [if_pos inside] at h
  split at h <;> cases h
  exact ⟨rfl, ‹_›⟩

/-- A range read inside the buffer that stops, stops at such a cell of the range. -/
theorem readCells_error_inside {n : Nat} {m : Memory} {f : Fault} : ∀ (k i : Nat), i + k ≤ n →
    readCells n m i k = .error f → f = .unwrittenCell ∧ ∃ j, j < i + k ∧ Memory.read m j = none := by
  intro k
  induction k with
  | zero => intro i _ h; cases h
  | succ k ih =>
    intro i inside h
    rw [readCells] at h
    split at h
    · rename_i g first
      cases h
      obtain ⟨kind, empty⟩ := readCell_error_inside (by omega) first
      exact ⟨kind, i, by omega, empty⟩
    · split at h <;> cases h
      rename_i rest
      obtain ⟨kind, j, hj, empty⟩ := ih (i + 1) (by omega) rest
      exact ⟨kind, j, by omega, empty⟩

/-- `DECR` stops with a fault only at an unwritten cell below `RXLEN`. -/
theorem decrVerdict_fault {p : Config.Setting} {cid : Byte} {len : BitVec 8} {rx : Memory} {f : Fault}
    (h : decrVerdict p cid len rx = .fault f) :
    f = .unwrittenCell ∧ ∃ j, j < len.toNat ∧ Memory.read rx j = none := by
  have room := (setting_rxcap_bounds p).1
  unfold decrVerdict at h
  split at h
  case isTrue => cases h
  rename_i fits
  split at h
  case isTrue => cases h
  rename_i long
  split at h
  case h_1 g first =>
    cases h
    obtain ⟨kind, empty⟩ := readCell_error_inside (by omega) first
    exact ⟨kind, 1, by omega, empty⟩
  split at h
  case isTrue => cases h
  split at h <;> cases h
  rename_i all
  obtain ⟨kind, j, hj, empty⟩ := readCells_error_inside _ 0 (by omega) all
  exact ⟨kind, j, by omega, empty⟩

/-- `EDID` stops with a fault only at an unwritten cell of the block. -/
theorem edidVerdict_fault {len : BitVec 8} {ed : Memory} {f : Fault} (h : edidVerdict len ed = .fault f) :
    f = .unwrittenCell ∧ ∃ j, j < 128 ∧ Memory.read ed j = none := by
  unfold edidVerdict at h
  split at h
  case isTrue => cases h
  split at h
  case isTrue => cases h
  split at h <;> cases h
  rename_i all
  obtain ⟨kind, j, hj, empty⟩ := readCells_error_inside _ 0 (by omega) all
  rw [Nat.zero_add] at hj
  exact ⟨kind, j, hj, empty⟩

/-- A sequence whose second part answers stops with a fault exactly where its first part does. -/
theorem fault_of_andThen_next {α β : Type} {o : Host.Outcome α Fault Refusal} {g : α → β} {f : Fault}
    (h : andThen o (fun a => .next (g a)) = .fault f) : o = .fault f := by
  cases o <;> cases h
  rfl

/-- Settles O10: only `DECR` and `EDID` read a buffer, and their verdicts say where a read can stop. -/
theorem faultsOnlyOnUnwrittenCells : Obligations.FaultsOnlyOnUnwrittenCells := by
  intro i s f h
  cases i with
  | decr =>
    rw [exec_decr_eq] at h
    obtain ⟨kind, cell⟩ := decrVerdict_fault (fault_of_andThen_next h)
    exact ⟨kind, .inl ⟨rfl, cell⟩⟩
  | edid =>
    rw [exec_edid_eq] at h
    obtain ⟨kind, cell⟩ := edidVerdict_fault (fault_of_andThen_next h)
    exact ⟨kind, .inr ⟨rfl, cell⟩⟩
  | encw | encr | frameW | frameR | frameP => cases h
  | slotUnusedZero | slotUnusedOnes | slotTextSerial | slotTextComment | slotRange | slotTextName | slotWhite
  | slotUnusedOther | slotDtd => cases h

/-! ### What a row changes -/

/-- All that running a row can do: emit a frame, write a verdict of `DECR` or of `EDID`, or write one descriptor, which
on a well-formed row is the selector's. -/
inductive RowEffect (i : Instr) (s : State) : State → Prop
  | write (frame : List Byte) (size : frame.length = 7) : RowEffect i s (emitW frame s)
  | read (frame : List Byte) (size : frame.length = 5) : RowEffect i s (emitR frame s)
  | reply (v : ReplyVerdict) : RowEffect i s (putReply v s)
  | block (v : EdidVerdict) (found : edidVerdict s.edlen s.edbuf = .next v) : RowEffect i s (putEdid v s)
  | slot (k : Fin 4) (d : List Byte) (desc : Desc) (row : encode i = (.slot k, d))
      (chosen : i.wellFormed = true → desc = slotDesc d) : RowEffect i s (putDesc k desc s)

/-- A slot row writes one descriptor. -/
theorem RowEffect.of_slot {i : Instr} {s : State} {k : Fin 4} {d : List Byte} {desc : Desc}
    (row : encode i = (.slot k, d)) (run : exec i s = .next (putDesc k desc s)) : RowEffect i s (putDesc k desc s) := by
  refine .slot k d desc row fun wf => ?_
  have selected := exec_slot_row row wf s
  rw [run] at selected
  have same := congrArg (fun t : State => t.record.desc[k]) (Host.Outcome.next.inj selected)
  simpa only [putDesc_desc_same] using same

/-- Every row has one of these effects. -/
theorem rowEffect_of_exec {i : Instr} {s t : State} (h : exec i s = .next t) : RowEffect i s t := by
  cases i with
  | encw | frameW => cases h; exact .write _ rfl
  | encr | frameR => cases h; exact .read _ rfl
  | decr =>
    rw [exec_decr_eq, andThen_eq_next_iff] at h
    obtain ⟨v, _, ⟨⟩⟩ := h
    exact .reply v
  | frameP => cases h; exact .reply _
  | edid =>
    rw [exec_edid_eq, andThen_eq_next_iff] at h
    obtain ⟨v, found, ⟨⟩⟩ := h
    exact .block v found
  | slotUnusedZero | slotUnusedOnes | slotTextSerial | slotTextComment | slotRange | slotTextName | slotWhite
  | slotUnusedOther | slotDtd => cases h; exact .of_slot rfl rfl

/-- Settles O9: reads stop only at unwritten cells, a frame ends before cell 7, and no other effect writes a buffer. -/
theorem noAccessOutsideABuffer : Obligations.NoAccessOutsideABuffer := by
  refine fun i s => ⟨fun h => ?reads, fun t h => ?writes⟩
  case reads => exact absurd (faultsOnlyOnUnwrittenCells i s _ h).1 (by decide)
  case writes =>
    cases rowEffect_of_exec h with
    | write frame size => exact ⟨fun a ha => read_txbuf_emitW_above s (size.trans_le ha), rfl, rfl⟩
    | read frame size => exact ⟨fun a ha => read_txbuf_emitR_above s (by omega), rfl, rfl⟩
    | reply v => cases v <;> exact ⟨fun _ _ => rfl, rfl, rfl⟩
    | block v => cases v <;> exact ⟨fun _ _ => rfl, rfl, rfl⟩
    | slot => exact ⟨fun _ _ => rfl, rfl, rfl⟩

/-- Settles O51: each row writes its group by that group's one operation. -/
theorem eachRowChangesOnlyItsGroup : Obligations.EachRowChangesOnlyItsGroup := by
  intro i s t h
  cases i with
  | encw | frameW => cases h; exact onlyTx_emitW _ s
  | encr | frameR => cases h; exact onlyTx_emitR _ s
  | decr =>
    rw [exec_decr_eq, andThen_eq_next_iff] at h
    obtain ⟨v, _, ⟨⟩⟩ := h
    exact onlyRr_putReply v s
  | frameP => cases h; exact onlyRr_putReply _ s
  | edid =>
    rw [exec_edid_eq, andThen_eq_next_iff] at h
    obtain ⟨v, _, ⟨⟩⟩ := h
    exact onlyEd_putEdid v s
  | slotUnusedZero | slotUnusedOnes | slotTextSerial | slotTextComment | slotRange | slotTextName | slotWhite
  | slotUnusedOther | slotDtd => cases h; exact onlyDesc_putDesc _ _ s

/-- Settles O52: the frames and verdicts are computed from the operands each command reads, and written to a result
group. -/
theorem unreadOperandsDoNotMatter : Obligations.UnreadOperandsDoNotMatter := by
  refine fun s c v n m => ⟨rfl, rfl, ?decr, ?edid⟩
  case decr =>
    have writes : ∀ w : ReplyVerdict, putReply w { s with val := v, edlen := m } =
        { putReply w s with val := v, edlen := m } := fun w => by cases w <;> rfl
    simp only [exec_decr_eq, andThen_assoc, andThen_next, writes]
  case edid =>
    have writes : ∀ w : EdidVerdict, putEdid w { s with cid := c, val := v, rxlen := n } =
        { putEdid w s with cid := c, val := v, rxlen := n } := fun w => by cases w <;> rfl
    simp only [exec_edid_eq, andThen_assoc, andThen_next, writes]

end Sys2Proof.Machine
end

section
/-! The invariant: canonical buffers, legal status codes, and a record whose registers agree while `ED_OK` is 1. It
holds at reset and every step keeps it, because each effect a row can have does (10_state.md R45; 60_exceptions.md
R231, R232). -/

namespace Sys2Proof.Machine

/-! ### The record `EDID` leaves -/

/-- The clock field of a timing is its first two bytes. -/
theorem le16_ne_zero {lo hi : Byte} (h : lo ≠ 0x00 ∨ hi ≠ 0x00) : le16 lo hi ≠ 0 := by
  intro zero
  have sum := toNat_le16 lo hi
  rw [zero, show (0 : BitVec 16).toNat = 0 from rfl] at sum
  have lo0 : lo = 0x00 := BitVec.eq_of_toNat_eq (show lo.toNat = 0 by omega)
  have hi0 : hi = 0x00 := BitVec.eq_of_toNat_eq (show hi.toNat = 0 by omega)
  exact h.elim (· lo0) (· hi0)

theorem textOf_coherent (kind : TextKind) (d : List Byte) : Desc.coherent (textOf kind d) = true :=
  decide_eq_true (toNat_textLen_le _)

/-- The selector's choice keeps its variant's bounds: it chooses a timing only where the clock field is not zero. -/
theorem slotDesc_coherent (d : List Byte) : Desc.coherent (slotDesc d) = true := by
  unfold slotDesc
  split
  · rfl
  split
  case isTrue clock => exact bne_iff_ne.mpr (le16_ne_zero clock)
  split
  · rfl
  split
  · exact textOf_coherent .serial d
  split
  · exact textOf_coherent .comment d
  split
  · rfl
  split
  · exact textOf_coherent .name d
  split <;> rfl

/-- A byte is 0x01 exactly when its two fields in a standard timing are 0 and 1. -/
theorem beq_one_eq_bits (b : Byte) : (b == 0x01) = (bits b 6 2 == 0 && bits b 0 6 == 1) := by
  revert b
  decide

/-- `USED` of a standard timing is 0 exactly for the pair 01 01. -/
theorem stdTimingOf_used (e : List Byte) (k : Nat) :
    (stdTimingOf e k).used = !((stdTimingOf e k).hcode == 0x01 && (stdTimingOf e k).aspect == 0 &&
      (stdTimingOf e k).vcode == 1) := by
  simp only [stdTimingOf, beq_one_eq_bits (byteAt e (39 + 2 * k)), Bool.and_assoc]

/-- The letters are fields of the manufacturer word's low 15 bits. -/
theorem extractLsb'_extractLsb'_15 (w : BitVec 16) {lo : Nat} (h : lo + 5 ≤ 15) :
    (w.extractLsb' 0 15).extractLsb' lo 5 = w.extractLsb' lo 5 := by
  rw [BitVec.extractLsb'_extractLsb'_of_le h]

/-- The record of a block agrees with itself. -/
theorem recordOf_coherent (e : List Byte) : (recordOf e).coherent = true := by
  have std : (recordOf e).std.toList.all
      (fun t => t.used == !(t.hcode == 0x01 && t.aspect == 0 && t.vcode == 1)) = true := by
    simp only [recordOf, Vector.toList_ofFn, List.all_eq_true, List.forall_mem_ofFn_iff, beq_iff_eq]
    exact fun k => stdTimingOf_used e k.val
  have desc : (recordOf e).desc.toList.all Desc.coherent = true := by
    simp only [recordOf, Vector.toList_ofFn, List.all_eq_true, List.forall_mem_ofFn_iff]
    exact fun k => slotDesc_coherent _
  have l1 : (recordOf e).mfgL1 = (recordOf e).mfgId.extractLsb' 10 5 :=
    (extractLsb'_extractLsb'_15 (mfgWord e) (by decide)).symm
  have l2 : (recordOf e).mfgL2 = (recordOf e).mfgId.extractLsb' 5 5 :=
    (extractLsb'_extractLsb'_15 (mfgWord e) (by decide)).symm
  have l3 : (recordOf e).mfgL3 = (recordOf e).mfgId.extractLsb' 0 5 :=
    (extractLsb'_extractLsb'_15 (mfgWord e) (by decide)).symm
  simp only [Record.coherent, std, desc, l1, l2, l3, beq_self_eq_true, Bool.and_self]

/-- A record with another coherent descriptor agrees with itself as before. -/
theorem Record.coherent_set_desc {r : Record} (h : r.coherent = true) (k : Fin 4) {d : Desc}
    (hd : d.coherent = true) : ({ r with desc := r.desc.set k.val d k.isLt } : Record).coherent = true := by
  simp only [Record.coherent, Bool.and_eq_true] at h ⊢
  obtain ⟨rest, desc⟩ := h
  refine ⟨rest, ?_⟩
  rw [List.all_eq_true] at desc ⊢
  intro x hx
  rw [Vector.toList_set] at hx
  rcases List.mem_or_eq_of_mem_set hx with old | rfl
  · exact desc x old
  · exact hd

/-! ### The invariant, group by group -/

/-- The status of result group RR is legal. -/
def State.rrLegal (s : State) : Prop := s.rrFail.toNat ≤ 4 ∧ (s.rrValid = true → s.rrFail = 0)

/-- The status and the record of result group ED are legal. -/
def State.edLegal (s : State) : Prop :=
  s.edErr.toNat ≤ 2 ∧ (s.edOk = true → s.edErr = 0 ∧ s.record.coherent = true)

/-- The frame length of result group TX is legal. -/
def State.txLegal (s : State) : Prop := s.txlen = 0 ∨ s.txlen = 5 ∨ s.txlen = 7

/-- The invariant is the buffers' form and the legality of each result group. -/
theorem State.inv_iff (s : State) :
    s.inv = true ↔ (Memory.wf Config.txCells s.txbuf = true ∧ s.txLegal) ∧ Memory.wf Config.rxcap s.rxbuf = true ∧
      Memory.wf Config.edidLen s.edbuf = true ∧ s.rrLegal ∧ s.edLegal := by
  simp only [State.inv, State.buffersWf, State.statusLegal, State.rrLegal, State.edLegal, State.txLegal,
    Bool.and_eq_true, Bool.or_eq_true, Bool.not_eq_true', decide_eq_true_eq, beq_iff_eq]
  grind

/-- Seven bytes written from the start keep the form of `TXBUF`. -/
theorem wf_txbuf_write {m : Memory} (h : Memory.wf Config.txCells m = true) {frame : List Byte}
    (size : frame.length = 7) : Memory.wf Config.txCells (Memory.writeRange m 0 frame) = true :=
  Memory.wf_writeRange frame 0 h (by rw [Nat.zero_add, size]; decide)

theorem inv_emitW {s : State} (h : s.inv = true) {frame : List Byte} (size : frame.length = 7) :
    (emitW frame s).inv = true := by
  rw [State.inv_iff] at h ⊢
  obtain ⟨⟨tx, _⟩, rest⟩ := h
  exact ⟨⟨wf_txbuf_write tx size, .inr (.inr rfl)⟩, rest⟩

theorem inv_emitR {s : State} (h : s.inv = true) {frame : List Byte} (size : frame.length = 5) :
    (emitR frame s).inv = true := by
  rw [State.inv_iff] at h ⊢
  obtain ⟨⟨tx, _⟩, rest⟩ := h
  exact ⟨⟨wf_txbuf_write tx (by rw [List.length_append, size]; rfl), .inr (.inl rfl)⟩, rest⟩

/-- The codes of `RR_FAIL` are 1 to 4. -/
theorem toNat_replyFailCode_le (f : ReplyFailure) : (replyFailCode f).toNat ≤ 4 := by
  cases f <;> decide

/-- The codes of `ED_ERR` are 1 and 2. -/
theorem toNat_edidErrCode_le (f : EdidFailure) : (edidErrCode f).toNat ≤ 2 := by
  cases f <;> decide

theorem inv_putReply {s : State} (h : s.inv = true) (v : ReplyVerdict) : (putReply v s).inv = true := by
  rw [State.inv_iff] at h
  obtain ⟨tx, rx, ed, _, edLegal⟩ := h
  cases v with
  | valid m c => exact (State.inv_iff _).mpr ⟨tx, rx, ed, ⟨Nat.zero_le 4, fun _ => rfl⟩, edLegal⟩
  | failed f => exact (State.inv_iff _).mpr ⟨tx, rx, ed, ⟨toNat_replyFailCode_le f, fun no => nomatch no⟩, edLegal⟩

/-- A verdict of `EDID` whose record, where it has one, agrees with itself keeps the invariant. -/
theorem inv_putEdid {s : State} (h : s.inv = true) {v : EdidVerdict}
    (found : edidVerdict s.edlen s.edbuf = .next v) : (putEdid v s).inv = true := by
  rw [State.inv_iff] at h
  obtain ⟨tx, rx, ed, rrLegal, _⟩ := h
  cases v with
  | parsed csum r =>
    obtain ⟨e, _, _, _, rfl⟩ := exists_block_of_parsed found
    exact (State.inv_iff _).mpr ⟨tx, rx, ed, rrLegal, Nat.zero_le 2, fun _ => ⟨rfl, recordOf_coherent e⟩⟩
  | failed f csum => exact (State.inv_iff _).mpr ⟨tx, rx, ed, rrLegal, toNat_edidErrCode_le f, fun no => nomatch no⟩

theorem inv_putDesc {s : State} (h : s.inv = true) (k : Fin 4) {d : Desc} (hd : d.coherent = true) :
    (putDesc k d s).inv = true := by
  rw [State.inv_iff] at h ⊢
  obtain ⟨tx, rx, ed, rrLegal, err, ok⟩ := h
  refine ⟨tx, rx, ed, rrLegal, err, fun edOk => ?_⟩
  obtain ⟨zero, coherent⟩ := ok edOk
  exact ⟨zero, Record.coherent_set_desc coherent k hd⟩

/-! ### Every step keeps it -/

/-- A slot row that is fetched is well formed. -/
theorem wellFormed_of_fetch_slot {s : State} {i : Instr} {k : Fin 4} {d : List Byte} (h : fetch s = .next i)
    (row : encode i = (.slot k, d)) : i.wellFormed = true := by
  obtain ⟨bs, decoded⟩ := exists_decode_of_fetch h
  have port : s.port = .slot k := congrArg Prod.fst ((encode_of_decodeAt decoded).symm.trans row)
  rw [port] at decoded
  exact (encode_of_decodeSlot decoded).2

/-- Settles O55: each effect of a row keeps the invariant; a slot row is fetched well formed, so it writes the
selector's descriptor. -/
theorem stepKeepsTheInvariant : Obligations.StepKeepsTheInvariant := by
  intro s t inv h
  obtain ⟨i, fetched, run⟩ := exists_fetch_of_step h
  cases rowEffect_of_exec run with
  | write frame size => exact inv_emitW inv size
  | read frame size => exact inv_emitR inv size
  | reply v => exact inv_putReply inv v
  | block v found => exact inv_putEdid inv found
  | slot k d desc row chosen =>
    rw [chosen (wellFormed_of_fetch_slot fetched row)]
    exact inv_putDesc inv k (slotDesc_coherent d)

/-- Settles O56: no buffer lists a cell, and the status registers are 0. -/
theorem resetHasTheInvariant : Obligations.ResetHasTheInvariant := by
  refine ⟨(State.inv_iff _).mpr ⟨⟨rfl, .inl rfl⟩, Memory.wf_nil _, rfl, ⟨Nat.zero_le 4, fun _ => rfl⟩, Nat.zero_le 2,
    fun no => nomatch no⟩, fun b i => ?_⟩
  cases b <;> rfl

end Sys2Proof.Machine
end

section
/-! The host's sequences: each command of an expansion is one exec on the command port, an attempt of `get_control`
sends the request and ends as its fetch does, and a failed attempt leads to the next one (43_vcp_transactions.md R143
to R149). -/

namespace Sys2Proof.Machine

/-! ### Commands and frames in a session -/

/-- The block as the host leaves it when it issues a command: `CMD` written, the command port selected. -/
def State.commanded (s : State) (cmd : BitVec 2) : State := (s.setPort .command).setCmd cmd

/-- Issuing a command runs it once. -/
theorem issue_of_exec {h : Session} {cmd : BitVec 2} {i : Instr} {t : State}
    (row : decode .command [cmd.setWidth 8] = .ok i) (run : exec i (h.block.commanded cmd) = .next t) :
    h.issue cmd = .next { h with block := t } := by
  have stepped : step ((h.block.setPort .command).setCmd cmd) = .next t := (step_of_command rfl row).trans run
  rw [Session.issue, stepped, andThen_next]

/-- Sending hands over the frame that `TXBUF` holds. -/
theorem send_of_readRange {h : Session} {frame : List Byte}
    (read : readRange h.block .tx 0 h.block.txlen.toNat = .ok frame) :
    h.send = .next { h with sent := h.sent ++ [frame] } := by
  rw [Session.send, read]

/-- The block after `set_control` has written its operands and run `ENCW`. -/
def State.writeIssued (s : State) (c : Byte) (x : BitVec Config.vw) : State :=
  emitW (frameWBytes c (zext16 x)) (((s.setCid c).setVal x).commanded 0)

/-- `set_control` ends with the frame of its operands sent. -/
theorem setControl_eq (c : Byte) (x : BitVec Config.vw) (ok : Bool) (h : Session) :
    setControl c x ok h =
      .next (⟨h.block.writeIssued c x, false, h.sent ++ [frameWBytes c (zext16 x)], h.attempts⟩, ok) := by
  have issued : Session.issue 0 { h with locked := true, block := (h.block.setCid c).setVal x } =
      .next { h with locked := true, block := h.block.writeIssued c x } := issue_of_exec (i := .encw) rfl rfl
  have sent : Session.send { h with locked := true, block := h.block.writeIssued c x } =
      .next ⟨h.block.writeIssued c x, true, h.sent ++ [frameWBytes c (zext16 x)], h.attempts⟩ :=
    send_of_readRange (readRange_emitW _ _ rfl)
  simp only [setControl, issued, sent, andThen_next]

/-- Settles O59: the frame is that of the operands written, and `ENCW` changes group TX alone. -/
theorem setControlSendsOneWriteFrame : Obligations.SetControlSendsOneWriteFrame :=
  fun c x ok h => ⟨_, setControl_eq c x ok h, rfl, rfl, rfl, onlyTx_emitW _ _⟩

/-! ### One attempt -/

/-- What `get_control` has done from h to h' in k attempts to read control c, whatever came back. -/
structure Attempted (c : Byte) (k : Nat) (h h' : Session) : Prop where
  cid : h'.block.cid = c
  attempts : h'.attempts = h.attempts + k
  sent : h'.sent = h.sent ++ List.replicate k (frameRBytes c)

/-- Attempts add up. -/
theorem Attempted.trans {c : Byte} {k l : Nat} {h h' h'' : Session} (first : Attempted c k h h')
    (second : Attempted c l h' h'') : Attempted c (k + l) h h'' where
  cid := second.cid
  attempts := by rw [second.attempts, first.attempts, Nat.add_assoc]
  sent := by rw [second.sent, first.sent, List.append_assoc, List.replicate_add]

/-- From h to h' no `DECR` ran, and the last fetch brought nothing back. -/
def NothingReceived (h h' : Session) : Prop :=
  h'.block.rxlen = 0 ∧ h'.block.rrValid = h.block.rrValid ∧ h'.block.rrFail = h.block.rrFail ∧
    h'.block.rrMax = h.block.rrMax ∧ h'.block.rrCur = h.block.rrCur

theorem NothingReceived.trans {h h' h'' : Session} (first : NothingReceived h h') (second : NothingReceived h' h'') :
    NothingReceived h h'' := by
  obtain ⟨_, valid, fail, max, cur⟩ := first
  obtain ⟨zero, valid', fail', max', cur'⟩ := second
  exact ⟨zero, valid'.trans valid, fail'.trans fail, max'.trans max, cur'.trans cur⟩

/-- The session after the request of one attempt has been sent. -/
def Session.requested (h : Session) : Session :=
  ⟨emitR (frameRBytes h.block.cid) (h.block.commanded 1), h.locked, h.sent ++ [frameRBytes h.block.cid], h.attempts + 1⟩

/-- The session after what one attempt fetched has been copied to `RXBUF`. -/
def Session.fetched (h : Session) (bs : List Byte) : Session :=
  { h.requested with block := hostWriteReply bs h.requested.block }

theorem attempted_fetched (h : Session) (bs : List Byte) : Attempted h.block.cid 1 h (h.fetched bs) := ⟨rfl, rfl, rfl⟩

/-- `hostWriteReply` copies no more than `RXCAP` bytes. -/
theorem hostWriteReply_take (bs : List Byte) (s : State) :
    hostWriteReply (bs.take Config.rxcap) s = hostWriteReply bs s := by
  rw [hostWriteReply, hostWriteReply, List.take_take, Nat.min_self]

/-- A fetch of no bytes leaves `RXLEN` 0 and group RR alone. -/
theorem nothingReceived_fetched_nil (h : Session) : NothingReceived h (h.fetched []) := by
  refine ⟨?_, rfl, rfl, rfl, rfl⟩
  rw [Session.fetched, hostWriteReply, List.take_nil]
  rfl

/-- The part of an attempt before its fetch is looked at. -/
theorem request_of_attempt (h : Session) :
    Session.issue 1 { h with attempts := h.attempts + 1 } =
        .next { h with attempts := h.attempts + 1, block := h.requested.block } ∧
      Session.send { h with attempts := h.attempts + 1, block := h.requested.block } = .next h.requested :=
  ⟨issue_of_exec (i := .encr) rfl rfl, send_of_readRange (readRange_emitR _ _ rfl)⟩

/-- An attempt that finds the session unusable says so. -/
theorem attempt_unusable (h : Session) : h.attempt .unusable = .next (h.fetched [], .transportUnavailable) := by
  obtain ⟨issued, sent⟩ := request_of_attempt h
  simp only [Session.attempt, issued, sent, andThen_next]
  rfl

/-- An attempt that fetches no bytes fails without a cause. -/
theorem attempt_of_nothing (h : Session) {f : Fetched} (empty : f.received = []) (usable : f ≠ .unusable) :
    h.attempt f = .next (h.fetched [], .invalid none) := by
  obtain ⟨issued, sent⟩ := request_of_attempt h
  simp only [Session.attempt, issued, sent, andThen_next]
  cases f with
  | unusable => exact absurd rfl usable
  | timeout | transientError => rfl
  | bytes bs =>
    obtain rfl : bs = [] := empty
    rfl

/-- What `get_control` makes of a verdict of `DECR`. -/
def ReplyVerdict.result : ReplyVerdict → ReadResult
  | .valid max cur => .response max cur
  | .failed f => .invalid (some (replyFailCode f))

/-- The session after `DECR` has written its verdict on what was fetched. -/
def Session.decoded (h : Session) (bs : List Byte) (v : ReplyVerdict) : Session :=
  { h.fetched bs with block := putReply v ((h.fetched bs).block.commanded 2) }

theorem attempted_decoded (h : Session) (bs : List Byte) (v : ReplyVerdict) :
    Attempted h.block.cid 1 h (h.decoded bs v) := by
  refine ⟨?_, rfl, rfl⟩
  cases v <;> rfl

/-- `DECR` on what was fetched gives the verdict on its first `RXCAP` bytes. -/
theorem issue_decr_fetched (h : Session) (bs : List Byte) :
    (h.fetched bs).issue 2 =
      .next (h.decoded bs (replyVerdict Config.hw h.block.cid (bs.take Config.rxcap))) := by
  refine issue_of_exec (i := .decr) rfl (exec_decr_of_replyIs ?_)
  have copied := hostWriteReply_is (bs.take Config.rxcap) h.requested.block (List.length_take_le _ _)
  rw [hostWriteReply_take] at copied
  exact copied

/-- What `get_control` reads off group RR is the verdict that was written there. -/
theorem result_of_putReply (v : ReplyVerdict) (s : State) :
    (if (putReply v s).rrValid then ReadResult.response (putReply v s).rrMax (putReply v s).rrCur
      else .invalid (some (putReply v s).rrFail)) = v.result := by
  cases v <;> rfl

/-- An attempt that fetches bytes ends as `DECR` does on them. -/
theorem attempt_of_bytes (h : Session) {bs : List Byte} (nonempty : bs ≠ []) :
    h.attempt (.bytes bs) =
      .next (h.decoded bs (replyVerdict Config.hw h.block.cid (bs.take Config.rxcap)),
        (replyVerdict Config.hw h.block.cid (bs.take Config.rxcap)).result) := by
  obtain ⟨issued, sent⟩ := request_of_attempt h
  obtain ⟨b, rest, rfl⟩ := List.exists_cons_of_ne_nil nonempty
  have decr := issue_decr_fetched h (b :: rest)
  have result := result_of_putReply (replyVerdict Config.hw h.block.cid ((b :: rest).take Config.rxcap))
    ((h.fetched (b :: rest)).block.commanded 2)
  simp only [Session.attempt, issued, sent, andThen_next, Fetched.received]
  rw [show ({ h.requested with block := hostWriteReply (b :: rest) h.requested.block } : Session) =
    h.fetched (b :: rest) from rfl, decr, andThen_next, ← result]
  rfl

/-- A failed attempt reports its cause, and one that fetched no bytes ran no `DECR`. -/
theorem attempt_of_fails {f : Fetched} (h : Session) (fails : f.fails h.block.cid) :
    ∃ h', h.attempt f = .next (h', .invalid (f.cause h.block.cid)) ∧ Attempted h.block.cid 1 h h' ∧
      (f.received = [] → NothingReceived h h') := by
  have nothing : f.received = [] → f ≠ .unusable → f.cause h.block.cid = none →
      ∃ h', h.attempt f = .next (h', .invalid (f.cause h.block.cid)) ∧ Attempted h.block.cid 1 h h' ∧
        (f.received = [] → NothingReceived h h') := fun empty usable cause =>
    ⟨_, cause ▸ attempt_of_nothing h empty usable, attempted_fetched h [], fun _ => nothingReceived_fetched_nil h⟩
  cases f with
  | timeout => exact nothing rfl (fun no => nomatch no) rfl
  | transientError => exact nothing rfl (fun no => nomatch no) rfl
  | unusable => exact fails.elim
  | bytes bs =>
    cases bs with
    | nil => exact nothing rfl (fun no => nomatch no) rfl
    | cons b rest =>
      obtain ⟨failure, failed⟩ := fails
      have run := attempt_of_bytes h (List.cons_ne_nil b rest)
      rw [failed] at run
      refine ⟨_, run.trans ?_, attempted_decoded h (b :: rest) (.failed failure), fun no => nomatch no⟩
      rw [Fetched.cause, failed]
      rfl

/-- An attempt that fetches a good reply gives its values and leaves them in group RR. -/
theorem attempt_of_carries {g : Fetched} {c : Byte} {m v : BitVec 16} {h : Session} (cid : h.block.cid = c)
    (carries : g.carries c m v) :
    ∃ h', h.attempt g = .next (h', .response m v) ∧ Attempted c 1 h h' ∧ h'.block.rrValid = true ∧
      h'.block.rrMax = m ∧ h'.block.rrCur = v := by
  subst cid
  cases g with
  | timeout | transientError | unusable => exact carries.elim
  | bytes bs =>
    have good : replyVerdict Config.hw h.block.cid (bs.take Config.rxcap) = .valid m v := carries
    have nonempty : bs ≠ [] := by
      rintro rfl
      rw [List.take_nil] at good
      cases good
    have run := attempt_of_bytes h nonempty
    rw [good] at run
    exact ⟨_, run, attempted_decoded h bs _, rfl, rfl, rfl⟩

/-! ### The retries -/

/-- After a failed attempt the loop goes on with the next answer. -/
theorem retryLoop_of_invalid {left : Nat} {f : Fetched} {fs : List Fetched} {h h' : Session} {why : Option (BitVec 3)}
    (run : h.attempt f = .next (h', .invalid why)) (first : fs.headD .timeout = f) :
    Session.retryLoop (left + 1) fs h = Session.retryLoop left fs.tail h' := by
  rw [Session.retryLoop, first, run]
  rfl

/-- Any other attempt ends the loop. -/
theorem retryLoop_of_done {n : Nat} {f : Fetched} {fs : List Fetched} {h h' : Session} {r : ReadResult}
    (run : h.attempt f = .next (h', r)) (done : ∀ why, r ≠ .invalid why) :
    Session.retryLoop n (f :: fs) h = .next (h', r) := by
  cases n with
  | zero => exact run
  | succ left =>
    rw [Session.retryLoop, List.headD_cons, run, andThen_next]
    cases r with
    | invalid why => exact absurd rfl (done why)
    | response | transportUnavailable => rfl

/-- What holds of every answer looked at, and of a timeout, holds of the first one and of those after it; answers that
run out are timeouts. -/
theorem forall_mem_take_succ {P : Fetched → Prop} (timeout : P .timeout) {n : Nat} {fs : List Fetched}
    (all : ∀ f ∈ fs.take (n + 1), P f) : P (fs.headD .timeout) ∧ ∀ f ∈ fs.tail.take n, P f := by
  cases fs with
  | nil => exact ⟨timeout, fun f hf => by simp at hf⟩
  | cons f fs => exact List.forall_mem_cons.mp all

/-- Where every attempt fails, the loop makes all of them and reports the last cause. -/
theorem retryLoop_of_fails {c : Byte} : ∀ (n : Nat) (fs : List Fetched) (h : Session), h.block.cid = c →
    (∀ f ∈ fs.take (n + 1), f.fails c) →
    ∃ h', Session.retryLoop n fs h = .next (h', .invalid ((fs.getD n .timeout).cause c)) ∧ Attempted c (n + 1) h h' ∧
      ((∀ f ∈ fs.take (n + 1), f.received = []) → NothingReceived h h') := by
  intro n
  induction n with
  | zero =>
    rintro fs h rfl fails
    have first : fs.headD .timeout = fs.getD 0 .timeout := by cases fs <;> rfl
    obtain ⟨h', run, attempted, quiet⟩ := attempt_of_fails h (forall_mem_take_succ trivial fails).1
    refine ⟨h', ?_, attempted, fun empty => quiet (forall_mem_take_succ (P := fun f => f.received = []) rfl empty).1⟩
    rw [Session.retryLoop, run, first]
  | succ n ih =>
    rintro fs h rfl fails
    obtain ⟨failsFirst, failsRest⟩ := forall_mem_take_succ trivial fails
    obtain ⟨h₁, run₁, attempted₁, quiet₁⟩ := attempt_of_fails h failsFirst
    obtain ⟨h₂, run₂, attempted₂, quiet₂⟩ := ih fs.tail h₁ attempted₁.cid failsRest
    have last : fs.getD (n + 1) .timeout = fs.tail.getD n .timeout := by cases fs <;> rfl
    refine ⟨h₂, ?run, ?attempted, fun empty => ?quiet⟩
    case run => rw [retryLoop_of_invalid run₁ rfl, run₂, last]
    case attempted => rw [Nat.add_comm (n + 1) 1]; exact attempted₁.trans attempted₂
    case quiet =>
      obtain ⟨emptyFirst, emptyRest⟩ := forall_mem_take_succ (P := fun f => f.received = []) rfl empty
      exact (quiet₁ emptyFirst).trans (quiet₂ emptyRest)

/-- Failed attempts within the retries lead to the answers after them. -/
theorem retryLoop_append {c : Byte} (rest : List Fetched) : ∀ (fs : List Fetched) (n : Nat) (h : Session),
    h.block.cid = c → fs.length ≤ n → (∀ f ∈ fs, f.fails c) →
    ∃ h', Session.retryLoop n (fs ++ rest) h = Session.retryLoop (n - fs.length) rest h' ∧
      Attempted c fs.length h h' := by
  intro fs
  induction fs with
  | nil => intro n h cid _ _; exact ⟨h, rfl, cid, rfl, (List.append_nil _).symm⟩
  | cons f fs ih =>
    rintro n h rfl within fails
    obtain ⟨failsFirst, failsRest⟩ := List.forall_mem_cons.mp fails
    obtain ⟨left, rfl⟩ : ∃ left, n = left + 1 := ⟨n - 1, by rw [List.length_cons] at within; omega⟩
    obtain ⟨h₁, run₁, attempted₁, _⟩ := attempt_of_fails h failsFirst
    obtain ⟨h₂, run₂, attempted₂⟩ := ih left h₁ attempted₁.cid (Nat.le_of_succ_le_succ within) failsRest
    refine ⟨h₂, ?run, ?attempted⟩
    case run => rw [retryLoop_of_invalid run₁ rfl, List.length_cons, Nat.add_sub_add_right, ← run₂]; rfl
    case attempted => rw [List.length_cons, Nat.add_comm fs.length 1]; exact attempted₁.trans attempted₂

/-! ### `get_control` -/

/-- The session as `get_control` starts its loop. -/
def Session.started (h : Session) (c : Byte) : Session :=
  { h with locked := true, attempts := 0, block := h.block.setCid c }

/-- `get_control` is the loop, with the lock given back at its end. -/
theorem getControl_of_retryLoop {n : Nat} {c : Byte} {fs : List Fetched} {h h' : Session} {r : ReadResult}
    (run : Session.retryLoop n fs (h.started c) = .next (h', r)) :
    getControl n c fs h = .next ({ h' with locked := false }, r) := by
  have run' : Session.retryLoop n fs { h with locked := true, attempts := 0, block := h.block.setCid c } =
      .next (h', r) := run
  rw [getControl, run', andThen_next]

/-- Settles O57: the loop makes one attempt more than it has retries, and none of them answers. -/
theorem failedAttemptsExhaustTheRetries : Obligations.FailedAttemptsExhaustTheRetries := by
  intro n c fs h fails
  obtain ⟨h', run, ⟨_, attempts, sent⟩, quiet⟩ := retryLoop_of_fails n fs (h.started c) rfl fails
  exact ⟨_, getControl_of_retryLoop run, attempts.trans (Nat.zero_add _), sent, rfl, quiet⟩

/-- Settles O58: the failed attempts lead to an answer that ends the loop. -/
theorem getControlEndsAtTheFirstGoodReply : Obligations.GetControlEndsAtTheFirstGoodReply := by
  refine fun n c fs rest h within fails => ⟨fun g m v carries => ?reply, ?unusable⟩
  case reply =>
    obtain ⟨h₁, run, before⟩ := retryLoop_append (g :: rest) fs n (h.started c) rfl within fails
    obtain ⟨h₂, last, attempted, valid, max, cur⟩ := attempt_of_carries before.cid carries
    rw [retryLoop_of_done last fun _ no => nomatch no] at run
    obtain ⟨_, attempts, sent⟩ := before.trans attempted
    exact ⟨_, getControl_of_retryLoop run, attempts.trans (Nat.zero_add _), sent, rfl, valid, max, cur⟩
  case unusable =>
    obtain ⟨h₁, run, before⟩ := retryLoop_append (.unusable :: rest) fs n (h.started c) rfl within fails
    rw [retryLoop_of_done (attempt_unusable h₁) fun _ no => nomatch no] at run
    obtain ⟨_, attempts, sent⟩ := before.trans (before.cid ▸ attempted_fetched h₁ [])
    exact ⟨_, getControl_of_retryLoop run, attempts.trans (Nat.zero_add _), sent, rfl⟩

/-! ### `read_edid` -/

/-- What `read_edid` makes of a verdict of `EDID`. -/
def EdidVerdict.result : EdidVerdict → BlockResult
  | .parsed csum r => .parsed r csum
  | .failed f _ => .structuralParseError (edidErrCode f)

/-- What `read_edid` reads off group ED is the verdict that was written there. -/
theorem result_of_putEdid (v : EdidVerdict) (s : State) :
    (if (putEdid v s).edOk then BlockResult.parsed (putEdid v s).record (putEdid v s).edCsumOk
      else .structuralParseError (putEdid v s).edErr) = v.result := by
  cases v <;> rfl

/-- `read_edid` on an answer ends as `EDID` does on the host's copy of it. -/
theorem readEdid_of_verdict {bs : List Byte} {h : Session} {v : EdidVerdict}
    (found : edidVerdict (hostWriteBlock bs h.block).edlen (hostWriteBlock bs h.block).edbuf = .next v) :
    readEdid (some bs) h =
      .next ({ h with locked := false, block := putEdid v ((hostWriteBlock bs h.block).commanded 3) }, v.result) := by
  have run : exec .edid ((hostWriteBlock bs h.block).commanded 3) =
      .next (putEdid v ((hostWriteBlock bs h.block).commanded 3)) := by
    rw [exec_edid_eq]
    exact congrArg (andThen · _) found
  have issued : Session.issue 3 { h with locked := true, block := hostWriteBlock bs h.block } = .next
      { h with locked := true, block := putEdid v ((hostWriteBlock bs h.block).commanded 3) } :=
    issue_of_exec (i := .edid) rfl run
  simp only [readEdid, issued, andThen_next, result_of_putEdid]

/-- The host's copy of a short answer has fewer than 128 bytes. -/
theorem edlen_hostWriteBlock_of_short {bs : List Byte} (short : bs.length < 128) (s : State) :
    (hostWriteBlock bs s).edlen.toNat < 128 := by
  have fits : bs.length ≤ Config.edidLen := Nat.le_of_lt short
  rw [hostWriteBlock, List.take_of_length_le fits, State.setEdIn_edlen, BitVec.toNat_ofNat]
  omega

/-- The host's copy of a long answer is its first 128 bytes. -/
theorem hostWriteBlock_is_take {bs : List Byte} (long : 128 ≤ bs.length) (s : State) :
    (hostWriteBlock bs s).blockIs (bs.take 128) := by
  have copied := hostWriteBlock_is (bs.take 128) s (List.length_take_of_le long)
  rwa [hostWriteBlock, show Config.edidLen = 128 from rfl, List.take_take, Nat.min_self] at copied

/-- Settles O60: what `EDID` finds in the host's copy of the answer is what `read_edid` reports. -/
theorem readEdidOutcomes : Obligations.ReadEdidOutcomes := by
  refine ⟨fun h => ⟨_, rfl, rfl, rfl⟩, fun bs h => ?_⟩
  by_cases short : bs.length < 128
  · have found := edidVerdict_of_short (edlen_hostWriteBlock_of_short short h.block)
      (hostWriteBlock bs h.block).edbuf
    exact ⟨_, _, readEdid_of_verdict found, rfl, fun _ => rfl, fun long => absurd short (not_lt.mpr long),
      fun long => absurd short (not_lt.mpr long)⟩
  · have long := not_lt.mp short
    have found := edidVerdict_of_blockIs (hostWriteBlock_is_take long h.block)
    have front : (bs.take 128).take 8 = bs.take 8 := by rw [List.take_take]; rfl
    refine ⟨_, _, readEdid_of_verdict found, rfl, fun no => absurd no short, fun _ missing => ?_, fun _ header => ?_⟩
    · rw [blockVerdict_of_no_header (front ▸ missing)]
      rfl
    · rw [blockVerdict_of_header (front.trans header)]
      rfl

end Sys2Proof.Machine
end
